-- ==== Sys2Proof/Word.lean ====
section
/-!
DEFINITION. The words of the ZH4 and `Table`, the fixed family of like things (four ports, four axes, eight output
lines, thirty-two zone slots) that the state is made of.
-/

namespace Sys2Proof

/-- A byte of a link frame. -/
abbrev Byte := BitVec 8

/-- A 32-bit word: the timebase (R170) and the capture sequence numbers (R123). -/
abbrev Word := BitVec 32

/-- A fixed number of like things, one for each index below `n`. -/
structure Table (n : Nat) (α : Type) where
  cells : Vector α n
deriving DecidableEq, Repr

namespace Table

variable {n : Nat} {α β : Type}

/-- The entry at an index. -/
def get (t : Table n α) (i : Fin n) : α := t.cells[i.val]

/-- The table with one entry replaced. -/
def put (t : Table n α) (i : Fin n) (x : α) : Table n α := ⟨t.cells.set i.val x⟩

/-- The table given entry by entry. -/
def tab (f : Fin n → α) : Table n α := ⟨Vector.ofFn f⟩

/-- The table whose entries are all the same. -/
def all (n : Nat) (x : α) : Table n α := tab fun _ => x

/-- Every entry replaced by a function of its index and itself. -/
def mapIdx (f : Fin n → α → β) (t : Table n α) : Table n β := tab fun i => f i (t.get i)

/-- The indexes, ascending, whose entry passes a test. -/
def having (p : α → Bool) (t : Table n α) : List (Fin n) := (List.finRange n).filter fun i => p (t.get i)

end Table

end Sys2Proof
end

