-- ==== Sys2Proof/Syntax.lean ====
section
/-!
DEFINITION. The names the spec gives to things (ports, axes, zones, lines, causes, choices), the requests a port unit
dispatches (`Request`, R165), and the commands of the block (`Instr`), one constructor for each row of the opcode table.
-/

namespace Sys2Proof

/-- A master port, P0 to P3. -/
abbrev Port := Fin 4
/-- An axis, 0 to 3. -/
abbrev Axis := Fin 4
/-- A zone id, the number of a slot of the zone table (R41). -/
abbrev ZoneId := Fin 32
/-- An output line, OUT0 to OUT7. -/
abbrev Line := Fin 8
/-- A trigger input, TRG0 to TRG3. -/
abbrev TrigIn := Fin 4

/-- R1: the direction of a step. -/
inductive StepDir
  | positive
  | negative
deriving DecidableEq, Repr

/-- R1: how raw steps become POSITIVE and NEGATIVE steps. -/
inductive Direction
  | normal
  | inverted
deriving DecidableEq, Repr

/-- R2: which steps change the count. -/
inductive Multiplier
  | x1
  | x2
  | x4
deriving DecidableEq, Repr

/-- R9: why an axis is LOST. -/
inductive LostCause
  | signal
  | spacing
  | range
deriving DecidableEq, Repr

/-- R43: why a view of an axis is FROZEN: STOP, or LOST with its lost cause. -/
inductive FreezeCause
  | stop
  | lost (c : LostCause)
deriving DecidableEq, Repr

/-- R23: the qualifier of an alignment: NONE, or a trigger input and the level it must have. -/
inductive Qualifier
  | none
  | trigger (t : TrigIn) (high : Bool)
deriving DecidableEq, Repr

/-- R23: the direction requirement of an alignment. -/
inductive DirReq
  | any
  | positive
  | negative
deriving DecidableEq, Repr

/-- R42: a zone's standing relative to its axis position. -/
inductive Membership
  | outside
  | inside
deriving DecidableEq, Repr

/-- R42, R70: which crossings of a zone are captured. -/
inductive CaptureFlags
  | none
  | enter
  | exit
  | both
deriving DecidableEq, Repr

/-- R67: which zone events a subscriber receives. -/
inductive Filter
  | crossings
  | all
deriving DecidableEq, Repr

/-- R71: a holder's override of a line's requested value. -/
inductive Force
  | none
  | on
  | off
deriving DecidableEq, Repr

/-- R71, R73: the contribution of a frozen zone. -/
inductive LossPolicy
  | drop
  | hold
deriving DecidableEq, Repr

/-- R114: which changes of a trigger input are latched, when it is not OFF. -/
inductive EdgeSel
  | rise
  | fall
  | both
deriving DecidableEq, Repr

/-- R117: the change a trigger input made. -/
inductive InputEdge
  | rise
  | fall
deriving DecidableEq, Repr

/-- R126: where ATTACH CURSOR places the cursor. -/
inductive CursorMode
  | newest
  | oldest
deriving DecidableEq, Repr

/-- The block that owns the state a request names (R148, section 8.5), or takes a teardown stage (R157). An event queue
and a cursor belong to the requesting port. -/
inductive Owner
  | axisUnit (ax : Axis)
  | snapshotLatch
  | zoneController
  | eventQueue
  | captureUnit
  | messageRelay
deriving DecidableEq, Repr

/-- The blocks that hand event records to the event queues (R98): each axis unit is a producer of its own. -/
inductive Producer
  | axisUnit (ax : Axis)
  | zoneController
  | captureUnit
  | messageRelay
deriving DecidableEq, Repr

/-- A request that a port unit dispatches to its owner (R148), with its operands as R165 lists them. Positions, offsets
and bounds are signed; a RENEW LEASE duration of 0 stands for none given. -/
inductive Request
  | configureAxis (ax : Axis) (multiplier : Byte) (direction : Direction) (low high : Int) (pitch : BitVec 24)
      (tolerance : Fin 16)
  | start (ax : Axis)
  | stop (ax : Axis)
  | resume (ax : Axis)
  | setOffset (ax : Axis) (offset : Int)
  | readAxes
  | subscribeAxis (ax : Axis)
  | unsubscribeAxis (ax : Axis)
  | align (ax : Axis) (preset : Int) (qualifier : Qualifier) (direction : DirReq)
  | cancelAlign (ax : Axis)
  | defineZone (ax : Axis) (lower upper : Int) (guard : BitVec 16) (capture : CaptureFlags) (choice : Option Filter)
  | modifyZone (z : ZoneId) (generation : BitVec 16) (lower upper : Int) (guard : BitVec 16) (capture : CaptureFlags)
  | deleteZone (z : ZoneId) (generation : BitVec 16)
  | readZone (z : ZoneId)
  | listZones (start : ZoneId)
  | subscribeZone (z : ZoneId) (generation : BitVec 16) (filter : Filter)
  | unsubscribeZone (z : ZoneId)
  | claimOutput (o : Line) (duration : BitVec 16) (wait : Bool)
  | renewLease (o : Line) (duration : BitVec 16)
  | releaseOutput (o : Line)
  | cancelWait (o : Line)
  | mapOutput (o : Line) (zones : BitVec 32)
  | forceOutput (o : Line) (force : Force)
  | configureOutput (o : Line) (policy : LossPolicy) (hold : Bool)
  | readOutputs
  | fetchEvents (n : Byte)
  | ackEvents (sequence : BitVec 16)
  | setAttention (enabled : Bool)
  | configureTrigger (t : TrigIn) (edge : Option EdgeSel) (axes : BitVec 4)
  | attachCursor (mode : CursorMode)
  | detachCursor
  | readCaptures (m : Byte)
  | postMessage (recipient : Port) (notify : Bool) (payload : List Byte)
  | takeMessage
  | withdrawMessage (id : Byte)
deriving DecidableEq, Repr

/-- The commands of the block, one constructor for each row of the opcode table. A command named after a dispatched
request is the OWNER taking that request of port `p` (R148, R150); its operands are those of the request frame. -/
inductive Instr
  /-- PUT (R146): the bytes clocked in after the type byte, up to the end of the chip-select period. -/
  | put (p : Port) (frame : List Byte)
  /-- GET (R149): how many bytes were clocked after the type byte. -/
  | get (p : Port) (clocked : Nat)
  /-- PEEK (R144): how many bytes were clocked after the type byte. -/
  | peek (p : Port) (clocked : Nat)
  /-- VOID_TRANSACTION (R143): all bytes clocked in, the first of them no type code. -/
  | voidTransaction (p : Port) (bytes : List Byte)
  /-- IDENTIFY (R152), in a frame with this session number and tag. -/
  | identify (p : Port) (session tag : Byte)
  /-- OPEN (R153), in a frame with this session number and tag. -/
  | openSession (p : Port) (session tag : Byte)
  /-- CLOSE (R155), in a frame with this session number and tag. -/
  | closeSession (p : Port) (session tag : Byte)
  | teardownStage2 (p : Port)
  | teardownStage3 (p : Port)
  /-- Stage 4 reaches each axis unit as one claim; the four are independent (R37, R157). -/
  | teardownStage4 (p : Port) (ax : Axis)
  | teardownStage5 (p : Port)
  | teardownStage6 (p : Port)
  | prstnAssert (p : Port)
  | prstnRelease (p : Port)
  | rstnAssert
  | rstnRelease
  | supplyBelowRange
  | startupPeriodEnd
  | configureAxis (p : Port) (ax : Axis) (multiplier : Byte) (direction : Direction) (low high : Int)
      (pitch : BitVec 24) (tolerance : Fin 16)
  | start (p : Port) (ax : Axis)
  | stop (p : Port) (ax : Axis)
  | resume (p : Port) (ax : Axis)
  | setOffset (p : Port) (ax : Axis) (offset : Int)
  | readAxes (p : Port)
  | subscribeAxis (p : Port) (ax : Axis)
  | unsubscribeAxis (p : Port) (ax : Axis)
  | align (p : Port) (ax : Axis) (preset : Int) (qualifier : Qualifier) (direction : DirReq)
  | cancelAlign (p : Port) (ax : Axis)
  /-- ENCODER_STEP (R1, R2): the raw direction, before the configured direction is applied. -/
  | encoderStep (ax : Axis) (raw : StepDir)
  | skippedState (ax : Axis)
  | lineFaultRise (ax : Axis)
  | lineFaultFall (ax : Axis)
  | indexPulse (ax : Axis)
  /-- SAMPLE (R57): the zone controller takes the sample at the head of the axis unit's path. -/
  | sample (ax : Axis)
  | rebaseNotice (ax : Axis)
  | freezeNotice (ax : Axis)
  | thawNotice (ax : Axis)
  | defineZone (p : Port) (ax : Axis) (lower upper : Int) (guard : BitVec 16) (capture : CaptureFlags)
      (choice : Option Filter)
  | modifyZone (p : Port) (z : ZoneId) (generation : BitVec 16) (lower upper : Int) (guard : BitVec 16)
      (capture : CaptureFlags)
  | deleteZone (p : Port) (z : ZoneId) (generation : BitVec 16)
  | readZone (p : Port) (z : ZoneId)
  | listZones (p : Port) (start : ZoneId)
  | subscribeZone (p : Port) (z : ZoneId) (generation : BitVec 16) (filter : Filter)
  | unsubscribeZone (p : Port) (z : ZoneId)
  | claimOutput (p : Port) (o : Line) (duration : BitVec 16) (wait : Bool)
  | renewLease (p : Port) (o : Line) (duration : BitVec 16)
  | releaseOutput (p : Port) (o : Line)
  | cancelWait (p : Port) (o : Line)
  | mapOutput (p : Port) (o : Line) (zones : BitVec 32)
  | forceOutput (p : Port) (o : Line) (force : Force)
  | configureOutput (p : Port) (o : Line) (policy : LossPolicy) (hold : Bool)
  | readOutputs (p : Port)
  | leaseTick
  | leaseExpiry (o : Line)
  /-- OHOLD_CHANGE (R76): the level OHOLD changes to. -/
  | oholdChange (active : Bool)
  /-- EVENT_APPEND (R100): the queue of port `p` takes the oldest record this producer handed to it. -/
  | eventAppend (p : Port) (producer : Producer)
  | fetchEvents (p : Port) (n : Byte)
  | ackEvents (p : Port) (sequence : BitVec 16)
  | setAttention (p : Port) (enabled : Bool)
  /-- TRIGGER_EDGE (R117): the change the input makes. -/
  | triggerEdge (t : TrigIn) (edge : InputEdge)
  | latchSnapshotWrite (t : TrigIn)
  | zoneCaptureClaim
  | configureTrigger (p : Port) (t : TrigIn) (edge : Option EdgeSel) (axes : BitVec 4)
  | attachCursor (p : Port) (mode : CursorMode)
  | detachCursor (p : Port)
  | readCaptures (p : Port) (m : Byte)
  | postMessage (p : Port) (recipient : Port) (notify : Bool) (payload : List Byte)
  | takeMessage (p : Port)
  | withdrawMessage (p : Port) (id : Byte)
  | supplyReturnToRange
deriving DecidableEq, Repr

end Sys2Proof
end

