-- ==== Sys2Proof/Decode.lean ====
section
/-!
DEFINITION. The decoder the host asks for. No row of this block's opcode table gives bits (the commands are
transactions, claims and events, not instruction words), so no word spells a command. The decoding of request frames,
which IS part of the hardware, is in Machine/Frames.lean. Which transaction the bytes of one chip-select period are stands
here: the type codes and the command each selects.
-/

namespace Sys2Proof

/-- R160: the type byte of a PUT. -/
def putType : Byte := 0xA5

/-- R160: the type byte of a GET. -/
def getType : Byte := 0x5A

/-- R160: the type byte of a PEEK. -/
def peekType : Byte := 0x3C

/-- R143, R160: the first byte is one of the three type codes. -/
def isTypeCode (b : Byte) : Bool := b == putType || b == getType || b == peekType

/-- R143, R160: the command that the bytes clocked in during one chip-select period on a port's link are. The first byte
selects the type: the bytes after it are the frame of a PUT; in a GET and a PEEK they are ignored and only clock bytes out;
any other first byte makes the transaction void; no byte is no transaction. -/
def linkCommand (p : Port) (bytes : List Byte) : Instr :=
  match bytes with
  | [] => .voidTransaction p []
  | b :: rest =>
    if b = putType then .put p rest
    else if b = getType then .get p rest.length
    else if b = peekType then .peek p rest.length
    else .voidTransaction p bytes

/-- The command a word spells by the opcode table's bits: none, since the table gives no row any bits. -/
def decodeTableWord (_nbits _w : Nat) : Option Instr := none

end Sys2Proof
end

