-- ==== Sys2Proof/Config.lean ====
section
/-!
DEFINITION. What this device fixes (its limits and identity, as the spec states them) and the one value the spec leaves
open.
-/

namespace Sys2Proof.Config

/-- R5: the lower saturation bound of the count. -/
def countMin : Int := -1073741824
/-- R5: the upper saturation bound of the count. -/
def countMax : Int := 1073741823
/-- R6, R42: the least position an axis can have. -/
def positionMin : Int := -2147483648
/-- R6, R42: the greatest position an axis can have. -/
def positionMax : Int := 2147483646

/-- 00 "Capacities at a Glance", R46: zones one port may author. -/
def zonesPerAuthor : Nat := 16
/-- R54: zones in one LIST ZONES response. -/
def listZonesMax : Nat := 16
/-- R78: the shortest lease, in ms. -/
def leaseMin : Nat := 10
/-- R78: the longest lease, in ms. -/
def leaseMax : Nat := 10000
/-- R100: an ordinary record is appended only below this many records held. -/
def queueOrdinary : Nat := 31
/-- R104: records of one FETCH EVENTS. -/
def fetchMax : Nat := 8
/-- R123: records the capture ring holds. -/
def ringMax : Nat := 64
/-- R129: records of one READ CAPTURES. -/
def readCapturesMax : Nat := 4
/-- R133: messages the pool holds. -/
def poolMax : Nat := 16
/-- R135: messages of one sender session the pool holds. -/
def senderMax : Nat := 8
/-- R135: the longest message payload. -/
def messageMax : Nat := 48
/-- R77: microseconds between two lease ticks. -/
def tickSpacing : Nat := 1000
/-- R169: the timebase value that ends the start-up period. -/
def startUpEnd : Nat := 3000

/-- R165: the vendor code of IDENTIFY. -/
def vendorCode : BitVec 16 := 0x3A1C
/-- R165: the part code of IDENTIFY. -/
def partCode : BitVec 16 := 0x0401
/-- R165: the revision of IDENTIFY. -/
def revision : Byte := 0x10
/-- R152: the twelve capacities of IDENTIFY, in the order of R152: ports, axes, zones, zones per author, output lines,
wait-queue depth, event queue depth, trigger inputs, capture ring, message pool, messages per sender session, payload
bytes. -/
def capacities : List Byte := [4, 4, 32, 16, 8, 3, 32, 4, 64, 16, 8, 48]

/-- A FREE VALUE (log 11, DESIGN CHOICE): the four bytes that stand in the field "oldest" of an ATTACH CURSOR response
while that field is marked absent. R126 marks it absent, R165 gives the field's place, and neither states its value.
It is applied to the counter `freeCount` of the state; nothing can be proved of its value. -/
opaque absentOldest : Nat → Word

end Sys2Proof.Config
end

