-- ==== Sys2Proof/Machine/State.lean ====
section
/-!
DEFINITION. The state of the ZH4: every register, queue, buffer, counter, mode and pin its data sheet gives it, as plain
data, the reasons a step can stop (there are none but the interface's), and the state after part reset. INVENTORY.md
lists each item with the rule that names it.
-/

namespace Sys2Proof.Machine

/-! ### Axis units (01, 02) -/

/-- R8: the configuration record of an axis. -/
structure AxisConfig where
  multiplier : Multiplier
  direction : Direction
  low : Int
  high : Int
  pitch : BitVec 24
  tolerance : Fin 16
deriving DecidableEq, Repr

/-- R23: the alignment record. -/
structure Alignment where
  aligner : Port
  preset : Int
  qualifier : Qualifier
  direction : DirReq
deriving DecidableEq, Repr

/-- R9: the state of an axis. The alignment record stands in ARMED and nowhere else (R23), the lost cause in LOST and
nowhere else (R9). -/
inductive AxisState
  | idle
  | free
  | armed (a : Alignment)
  | aligned
  | lost (c : LostCause)
deriving DecidableEq, Repr

/-- The state of an axis as events and responses name it: without the alignment record. -/
inductive AxisTag
  | idle
  | free
  | armed
  | aligned
  | lost (c : LostCause)
deriving DecidableEq, Repr

/-- R1: the four phase states of A and B. -/
inductive Phase
  | lowLow
  | highLow
  | highHigh
  | lowHigh
deriving DecidableEq, Repr

/-- R22: the causes of a rebase notice. -/
inductive RebaseCause
  | offset
  | align
deriving DecidableEq, Repr

/-- R22: the causes of a thaw notice. -/
inductive ThawCause
  | start
  | resume
deriving DecidableEq, Repr

/-- R21, R22, R56: what an axis unit sends the zone controller, each with the position at the instant it was produced. -/
inductive AxisMsg
  /-- A sample, with whether the axis was ALIGNED when the step was counted (R56). -/
  | sample (position : Int) (aligned : Bool)
  | rebase (position : Int) (cause : RebaseCause)
  | freeze (position : Int) (cause : FreezeCause)
  | thaw (position : Int) (cause : ThawCause)
deriving DecidableEq, Repr

/-- R9: an axis unit. `outbox` holds the samples and notices the zone controller has not yet taken, oldest first. -/
structure AxisUnit where
  config : AxisConfig
  state : AxisState
  count : Int
  offset : Int
  lastStep : Option StepDir
  lastIndex : Option Int
  subscribers : Table 4 Bool
  lineFault : Bool
  phase : Phase
  outbox : List AxisMsg
deriving DecidableEq, Repr

/-! ### Zone controller (03, 04) -/

/-- R42: a zone record. The zone id is the number of its slot. -/
structure Zone where
  axis : Axis
  lower : Int
  upper : Int
  guard : BitVec 16
  capture : CaptureFlags
  author : Port
  membership : Membership
  frozen : Bool
  subscribers : Table 4 (Option Filter)
deriving DecidableEq, Repr

/-- R41: a slot of the zone table, EMPTY when it holds no zone; it keeps its generation in both conditions. -/
structure Slot where
  generation : BitVec 16
  zone : Option Zone
deriving DecidableEq, Repr

/-- R43: whether a view of an axis is LIVE or FROZEN, with the freeze cause. -/
inductive Liveness
  | live
  | frozen (c : FreezeCause)
deriving DecidableEq, Repr

/-- R43: the zone controller's view of an axis. -/
structure View where
  last : Int
  liveness : Liveness
deriving DecidableEq, Repr

/-- R71: the lease fields of an output record, present exactly when a holder is present. -/
structure Lease where
  holder : Port
  duration : Nat
  timer : Nat
deriving DecidableEq, Repr

/-- R71: an entry of a wait queue. -/
structure Waiter where
  port : Port
  duration : Nat
deriving DecidableEq, Repr

/-- R71: an output record. `expiryClaim` is the expiry it has presented and the zone controller has not taken (R77). -/
structure Output where
  map : BitVec 32
  lease : Option Lease
  waiters : List Waiter
  force : Force
  policy : LossPolicy
  hold : Bool
  requested : Bool
  expiryClaim : Bool
deriving DecidableEq, Repr

/-- R75: an output driver: its two copies and its pin. -/
structure Driver where
  requested : Bool
  hold : Bool
  pin : Bool
deriving DecidableEq, Repr

/-! ### Event queues (05) -/

/-- R97: the kinds of event. -/
inductive EventKind
  | zoneEnter
  | zoneExit
  | zonePass
  | zoneFrozen
  | zoneThawed
  | zoneChanged
  | zoneRemoved
  | axisState
  | alignDone
  | alignAborted
  | leaseGranted
  | leaseLost
  | mapReduced
  | captureReady
  | messageArrived
  | messageTaken
  | messageUndelivered
  | overflow
deriving DecidableEq, Repr

/-- R97: the causes an event carries. -/
inductive Cause
  | crossing
  | edit
  | offset
  | align
  | start
  | resume
  | stop
  | signal
  | spacing
  | range
  | expiry
  | teardown
  | cancel
deriving DecidableEq, Repr

/-- R122: the source of a capture record. -/
inductive CaptureSource
  | trigger (t : TrigIn)
  | zone (z : ZoneId)
deriving DecidableEq, Repr

/-- R96: the source of an event. -/
inductive EventSource
  | zone (z : ZoneId)
  | axis (ax : Axis)
  | line (o : Line)
  | message (id : Byte)
  | capture (c : CaptureSource)
deriving DecidableEq, Repr

/-- R96: the detail of an event: a membership, an axis state with its lost cause, or the condition of a marker. -/
inductive Detail
  | membership (m : Membership)
  | axis (t : AxisTag)
  | marker (isSealed : Bool)
deriving DecidableEq, Repr

/-- R96: an event as its producer makes it: every field but the sequence number. -/
structure Event where
  kind : EventKind
  cause : Option Cause
  source : Option EventSource
  detail : Option Detail
  generation : BitVec 16
  value : Int
  timestamp : Word
deriving DecidableEq, Repr

/-- R96: an event record of a queue. -/
structure EventRecord where
  sequence : BitVec 16
  event : Event
deriving DecidableEq, Repr

/-- R95: an event queue. `attn` is true while ATTNn is asserted (R112); `arriving` holds the records handed to the queue
and not yet taken, each with its producer (R98). -/
structure EventQueue where
  records : List EventRecord
  next : BitVec 16
  isOpen : Bool
  attention : Bool
  attn : Bool
  arriving : List (Producer × Event)
deriving DecidableEq, Repr

/-! ### Capture unit (06) -/

/-- R117: the state summary of an axis in a capture record. -/
inductive Summary
  | frozen
  | live
  | aligned
deriving DecidableEq, Repr

/-- R122: an axis entry of a capture record. -/
structure AxisEntry where
  axis : Axis
  position : Int
  summary : Summary
deriving DecidableEq, Repr

/-- R122: the edge of a capture record. -/
inductive CaptureEdge
  | rise
  | fall
  | enter
  | exit
  | pass
deriving DecidableEq, Repr

/-- R122: a capture record; the generation is absent for an input source. -/
structure CaptureRecord where
  sequence : Word
  timestamp : Word
  source : CaptureSource
  edge : CaptureEdge
  generation : Option (BitVec 16)
  precedingDropped : Bool
  entries : List AxisEntry
deriving DecidableEq, Repr

/-- R57, R70: the events a sample can give a zone. -/
inductive Crossing
  | enter
  | exit
  | pass
deriving DecidableEq, Repr

/-- R70: a zone capture claim. -/
structure CaptureClaim where
  zone : ZoneId
  generation : BitVec 16
  event : Crossing
  axis : Axis
  position : Int
  aligned : Bool
  time : Word
deriving DecidableEq, Repr

/-- R114: a trigger configuration record whose edge is not OFF. -/
structure TriggerConfig where
  edge : EdgeSel
  axes : BitVec 4
  author : Port
deriving DecidableEq, Repr

/-- R117: the snapshot a FULL latch holds. -/
structure Snapshot where
  edge : InputEdge
  timestamp : Word
  entries : List AxisEntry
deriving DecidableEq, Repr

/-- R114, R117, R118: a trigger input: its level, its record (none = OFF), its latch (none = EMPTY), its dropped-edge
flag. -/
structure Trigger where
  level : Bool
  config : Option TriggerConfig
  latch : Option Snapshot
  dropped : Bool
deriving DecidableEq, Repr

/-- R125: an ATTACHED cursor. -/
structure Cursor where
  next : Word
  skip : Word
deriving DecidableEq, Repr

/-- R121–R125: the capture unit beside its trigger inputs: claims not yet taken, the ring (oldest first), the counter and
the cursors (none = DETACHED). -/
structure CaptureUnit where
  waiting : List CaptureClaim
  ring : List CaptureRecord
  counter : Word
  cursors : Table 4 (Option Cursor)
deriving DecidableEq, Repr

/-! ### Message relay (07) -/

/-- R133: a message record; its length is that of its payload. -/
structure Message where
  id : Byte
  sender : Port
  senderSession : Byte
  recipient : Port
  notify : Bool
  payload : List Byte
  posted : Word
deriving DecidableEq, Repr

/-! ### Port units (08, 09) -/

/-- R166: the result codes. -/
inductive ResultCode
  | ok
  | queued
  | frameError
  | checkError
  | unknownRequest
  | badPayload
  | noSession
  | staleSession
  | sessionOpen
  | sessionClosing
  | badArgument
  | axisState
  | axisBusy
  | lineFault
  | outOfRange
  | notAligner
  | notSubscribed
  | tableFull
  | authorLimit
  | noSuchZone
  | notAuthor
  | generationMismatch
  | zoneInUse
  | alreadyHolder
  | held
  | alreadyWaiting
  | notHolder
  | notWaiting
  | badSequence
  | triggerInUse
  | noCursor
  | poolFull
  | senderLimit
  | noRecipient
  | notFound
deriving DecidableEq, Repr

/-- R157: the next stage of a teardown; in stage 4 the axis units that have taken their claim. -/
inductive Stage
  | two
  | three
  | four (taken : Table 4 Bool)
  | five
  | six
deriving DecidableEq, Repr

/-- R151: the session state; in CLOSING, the stage of the teardown that is to be taken next. -/
inductive Session
  | closed
  | opened
  | closing (stage : Stage)
deriving DecidableEq, Repr

/-- R149, R162: a response held in the slot; `note` is PREVIOUS_UNCOLLECTED. -/
structure Response where
  code : Byte
  tag : Byte
  result : ResultCode
  note : Bool
  payload : List Byte
deriving DecidableEq, Repr

/-- R146: the request slot. In WORKING it keeps what the response will echo. -/
inductive ReqSlot
  | ready
  | working (code tag : Byte) (note : Bool)
  | answerReady (r : Response)
deriving DecidableEq, Repr

/-- R148, R150: a request dispatched and not yet taken by its owner; `awaited` says that the slot still holds it as
WORKING, so that its answer will be matched. -/
structure Dispatch where
  request : Request
  awaited : Bool
deriving DecidableEq, Repr

/-- R143–R157: a port unit. `prstn` is true while PRSTn is asserted. `miso` is the model's own record of the bytes the
port clocked out in its last transaction (log 15). -/
structure PortUnit where
  session : Session
  number : Byte
  slot : ReqSlot
  closePending : Bool
  frameDiscarded : Bool
  prstn : Bool
  inFlight : List Dispatch
  miso : List Byte
deriving DecidableEq, Repr

/-! ### The whole part -/

/-- The state of the part. `pending` is the queue of commands that wait; `rstn` is true while RSTN is asserted;
`freeCount` numbers the free values taken so far (the model's own field, log 11). -/
@[ext]
structure State where
  pending : List Instr
  rstn : Bool
  supplyOk : Bool
  timebase : Word
  sinceTick : Nat
  starting : Bool
  ports : Table 4 PortUnit
  axes : Table 4 AxisUnit
  views : Table 4 View
  zones : Table 32 Slot
  outputs : Table 8 Output
  drivers : Table 8 Driver
  ohold : Bool
  queues : Table 4 EventQueue
  triggers : Table 4 Trigger
  capture : CaptureUnit
  pool : List Message
  freeCount : Nat
deriving DecidableEq, Repr

/-- Why a step stops with a fault. No rule of the spec stops the part: every request is answered with a result code and
process-side faults are states and events (00, General Description), so there is no constructor. -/
inductive Fault
deriving DecidableEq, Repr

/-- Why a step is refused. -/
inductive Refusal
  /-- The host's interface asks for it: raised by no arm of `exec` in this model (every row has its meaning). Safe: a
  refused step proves nothing about the part. -/
  | notModelled (mnemonic : String)
deriving DecidableEq, Repr

/-- R8: the configuration of an axis after part reset. -/
def AxisConfig.reset : AxisConfig :=
  { multiplier := .x4, direction := .normal, low := -2147483648, high := 2147483647, pitch := 0, tolerance := 0 }

/-- R9: an axis unit after part reset. The line-fault level and the phase follow the encoder, whatever the reset. -/
def AxisUnit.reset (lineFault : Bool) (phase : Phase) : AxisUnit :=
  { config := .reset, state := .idle, count := 0, offset := 0, lastStep := none, lastIndex := none,
    subscribers := .all 4 false, lineFault := lineFault, phase := phase, outbox := [] }

/-- R43: a view after part reset. -/
def View.reset : View := { last := 0, liveness := .frozen .stop }

/-- R41: a slot after part reset. -/
def Slot.reset : Slot := { generation := 0, zone := none }

/-- R71: an output record after part reset. -/
def Output.reset : Output :=
  { map := 0, lease := none, waiters := [], force := .none, policy := .drop, hold := true, requested := false,
    expiryClaim := false }

/-- R75: a driver after part reset. -/
def Driver.reset : Driver := { requested := false, hold := true, pin := false }

/-- R95: an event queue after part reset. -/
def EventQueue.reset : EventQueue :=
  { records := [], next := 1, isOpen := false, attention := false, attn := false, arriving := [] }

/-- R114, R117, R118: a trigger input after part reset; its level is the pin's. -/
def Trigger.reset (level : Bool) : Trigger := { level := level, config := none, latch := none, dropped := false }

/-- R121, R123, R125: the capture unit after part reset. -/
def CaptureUnit.reset : CaptureUnit := { waiting := [], ring := [], counter := 0, cursors := .all 4 none }

/-- R145, R151, R159: a port unit after part reset; the PRSTn level is the pin's. -/
def PortUnit.reset (prstn : Bool) : PortUnit :=
  { session := .closed, number := 0, slot := .ready, closePending := false, frameDiscarded := false, prstn := prstn,
    inFlight := [], miso := [] }

/-- The machine right after part reset: the instant at which RSTN is released with the supply in range (R169): every
block at its after-reset values, the timebase at 0 and the start-up period begun. The input pins' levels are DESIGN
CHOICES (log 6). -/
def State.reset : State :=
  { pending := [], rstn := false, supplyOk := true, timebase := 0, sinceTick := 0, starting := true,
    ports := .all 4 (.reset false), axes := .all 4 (.reset false .lowLow), views := .all 4 .reset,
    zones := .all 32 .reset, outputs := .all 8 .reset, drivers := .all 8 .reset, ohold := true,
    queues := .all 4 .reset, triggers := .all 4 (.reset false), capture := .reset, pool := [], freeCount := 0 }

end Sys2Proof.Machine
end

