-- ==== Sys2Proof/WellFormed.lean ====
section
/-!
DEFINITION. Which commands and requests a link can carry: signed 32-bit fields (R164), message payloads that fit a
64-byte request frame (R147, R165), and void transactions that begin with no type code (R143, R160). Everything else is
checked by the types of the operands.
-/

namespace Sys2Proof

/-- R164: a value a signed field of 4 bytes can carry. -/
abbrev signed32 (x : Int) : Bool := decide (-2147483648 ≤ x) && decide (x ≤ 2147483647)

/-- R162, R165: the longest POST MESSAGE payload a request frame has room for: 64 − 5 − 3 bytes. -/
def postRoom : Nat := 56

/-- A request whose operands its frame can carry. -/
def Request.wellFormed : Request → Bool
  | .configureAxis _ _ _ low high _ _ => signed32 low && signed32 high
  | .setOffset _ offset => signed32 offset
  | .align _ preset _ _ => signed32 preset
  | .defineZone _ lower upper _ _ _ => signed32 lower && signed32 upper
  | .modifyZone _ _ lower upper _ _ => signed32 lower && signed32 upper
  | .postMessage _ _ payload => decide (payload.length ≤ postRoom)
  | _ => true

/-- A command that names something that can happen on the part's links and pins. -/
def Instr.wellFormed : Instr → Bool
  | .voidTransaction _ bytes => match bytes with
    | [] => true
    | b :: _ => !isTypeCode b
  | .configureAxis _ _ _ _ low high _ _ => signed32 low && signed32 high
  | .setOffset _ _ offset => signed32 offset
  | .align _ _ preset _ _ => signed32 preset
  | .defineZone _ _ lower upper _ _ _ => signed32 lower && signed32 upper
  | .modifyZone _ _ _ lower upper _ _ => signed32 lower && signed32 upper
  | .postMessage _ _ _ payload => decide (payload.length ≤ postRoom)
  | _ => true

end Sys2Proof
end

