-- ==== Sys2Proof/Machine/Operands.lean ====
section
/-!
DEFINITION. The field encodings of R164, the record layouts of R168 and the readers of request fields (R167): how every
operand and every reported value stands in bytes. Multi-byte fields are little-endian (09, opening words).
-/

namespace Sys2Proof

/-- Section 8.5: the owner a request is dispatched to. -/
def Request.owner : Request → Owner
  | .configureAxis ax .. | .start ax | .stop ax | .resume ax | .setOffset ax _ | .subscribeAxis ax
  | .unsubscribeAxis ax | .align ax .. | .cancelAlign ax => .axisUnit ax
  | .readAxes => .snapshotLatch
  | .defineZone .. | .modifyZone .. | .deleteZone .. | .readZone _ | .listZones _ | .subscribeZone ..
  | .unsubscribeZone _ | .claimOutput .. | .renewLease .. | .releaseOutput _ | .cancelWait _ | .mapOutput ..
  | .forceOutput .. | .configureOutput .. | .readOutputs => .zoneController
  | .fetchEvents _ | .ackEvents _ | .setAttention _ => .eventQueue
  | .configureTrigger .. | .attachCursor _ | .detachCursor | .readCaptures _ => .captureUnit
  | .postMessage .. | .takeMessage | .withdrawMessage _ => .messageRelay

/-! ### Codes of the names in Syntax (R164) -/

def LostCause.code : LostCause → Byte
  | .signal => 1
  | .spacing => 2
  | .range => 3

def FreezeCause.code : FreezeCause → Byte
  | .stop => 4
  | .lost c => LostCause.code c

def Multiplier.code : Multiplier → Byte
  | .x1 => 1
  | .x2 => 2
  | .x4 => 4

/-- R8: any byte is encodable as a multiplier; only 1, 2 and 4 are accepted. -/
def Multiplier.ofCode (b : Byte) : Option Multiplier :=
  if b = 1 then some .x1 else if b = 2 then some .x2 else if b = 4 then some .x4 else none

def Direction.code : Direction → Byte
  | .normal => 0
  | .inverted => 1

def Direction.ofCode (b : Byte) : Option Direction :=
  if b = 0 then some .normal else if b = 1 then some .inverted else none

/-- 0 NONE, 1–4 TRG0–TRG3 HIGH, 5–8 TRG0–TRG3 LOW. -/
def Qualifier.code : Qualifier → Byte
  | .none => 0
  | .trigger t true => BitVec.ofNat 8 (1 + t.val)
  | .trigger t false => BitVec.ofNat 8 (5 + t.val)

def Qualifier.ofCode (b : Byte) : Option Qualifier :=
  if b = 0 then some .none
  else if b = 1 then some (.trigger 0 true)
  else if b = 2 then some (.trigger 1 true)
  else if b = 3 then some (.trigger 2 true)
  else if b = 4 then some (.trigger 3 true)
  else if b = 5 then some (.trigger 0 false)
  else if b = 6 then some (.trigger 1 false)
  else if b = 7 then some (.trigger 2 false)
  else if b = 8 then some (.trigger 3 false)
  else Option.none

def DirReq.code : DirReq → Byte
  | .any => 0
  | .positive => 1
  | .negative => 2

def DirReq.ofCode (b : Byte) : Option DirReq :=
  if b = 0 then some .any else if b = 1 then some .positive else if b = 2 then some .negative else none

def Membership.code : Membership → Byte
  | .outside => 0
  | .inside => 1

def CaptureFlags.code : CaptureFlags → Byte
  | .none => 0
  | .enter => 1
  | .exit => 2
  | .both => 3

def CaptureFlags.ofCode (b : Byte) : Option CaptureFlags :=
  if b = 0 then some .none else if b = 1 then some .enter else if b = 2 then some .exit
  else if b = 3 then some .both else Option.none

def Filter.code : Filter → Byte
  | .crossings => 1
  | .all => 2

def Filter.ofCode (b : Byte) : Option Filter :=
  if b = 1 then some .crossings else if b = 2 then some .all else none

def Force.code : Force → Byte
  | .none => 0
  | .on => 1
  | .off => 2

def Force.ofCode (b : Byte) : Option Force :=
  if b = 0 then some .none else if b = 1 then some .on else if b = 2 then some .off else Option.none

def LossPolicy.code : LossPolicy → Byte
  | .drop => 0
  | .hold => 1

def LossPolicy.ofCode (b : Byte) : Option LossPolicy :=
  if b = 0 then some .drop else if b = 1 then some .hold else none

def CursorMode.code : CursorMode → Byte
  | .newest => 0
  | .oldest => 1

def CursorMode.ofCode (b : Byte) : Option CursorMode :=
  if b = 0 then some .newest else if b = 1 then some .oldest else none

end Sys2Proof

namespace Sys2Proof.Machine

/-! ### Numbers -/

/-- Two bytes, the least significant first. -/
def le16 (w : BitVec 16) : List Byte := [w.extractLsb' 0 8, w.extractLsb' 8 8]

/-- Three bytes, the least significant first. -/
def le24 (w : BitVec 24) : List Byte := [w.extractLsb' 0 8, w.extractLsb' 8 8, w.extractLsb' 16 8]

/-- Four bytes, the least significant first. -/
def le32 (w : Word) : List Byte :=
  [w.extractLsb' 0 8, w.extractLsb' 8 8, w.extractLsb' 16 8, w.extractLsb' 24 8]

/-- A signed field of four bytes, two's complement. -/
def signedBytes (x : Int) : List Byte := le32 (BitVec.ofInt 32 x)

/-- A number in one byte. -/
def byteOf (n : Nat) : Byte := BitVec.ofNat 8 n

/-- A number in two bytes. -/
def durationBytes (n : Nat) : List Byte := le16 (BitVec.ofNat 16 n)

/-- R164: a Boolean field. -/
def boolCode (b : Bool) : Byte := if b then 1 else 0

/-- R164: a port field that may be absent. -/
def optPortCode : Option Port → Byte
  | none => 0xFF
  | some p => byteOf p.val

/-! ### Codes of the fields of records and responses (R164, R166, R168) -/

def AxisState.tag : AxisState → AxisTag
  | .idle => .idle
  | .free => .free
  | .armed _ => .armed
  | .aligned => .aligned
  | .lost c => .lost c

def AxisTag.code : AxisTag → Byte
  | .idle => 0
  | .free => 1
  | .armed => 2
  | .aligned => 3
  | .lost _ => 4

/-- The lost cause field: 0 when absent. -/
def AxisTag.causeCode : AxisTag → Byte
  | .lost c => LostCause.code c
  | _ => 0

/-- The freeze cause field of READ ZONE (R53): absent unless frozen. -/
def Liveness.code : Liveness → Byte
  | .live => 0
  | .frozen c => FreezeCause.code c

def boolOfCode (b : Byte) : Option Bool :=
  if b = 0 then some false else if b = 1 then some true else none

/-- The author subscription choice adds 0 NONE to the filters. -/
def choiceCode : Option Filter → Byte
  | none => 0
  | some f => Filter.code f

def choiceOfCode (b : Byte) : Option (Option Filter) :=
  if b = 0 then some none else (Filter.ofCode b).map some

/-- Trigger edge: 0 OFF, 1 RISE, 2 FALL, 3 BOTH. -/
def edgeCode : Option EdgeSel → Byte
  | none => 0
  | some .rise => 1
  | some .fall => 2
  | some .both => 3

def edgeOfCode (b : Byte) : Option (Option EdgeSel) :=
  if b = 0 then some none else if b = 1 then some (some .rise) else if b = 2 then some (some .fall)
  else if b = 3 then some (some .both) else none

/-- An index field (axis, port, trigger input, output line, zone id, tolerance): its value, if it lies in range. -/
def finOfCode (n : Nat) (b : Byte) : Option (Fin n) := if h : b.toNat < n then some ⟨b.toNat, h⟩ else none

def finCode {n : Nat} (i : Fin n) : Byte := byteOf i.val

/-- An axis set: bits 7–4 must be zero. -/
def axisSetOfCode (b : Byte) : Option (BitVec 4) := if b.toNat < 16 then some (b.setWidth 4) else none

def axisSetCode (s : BitVec 4) : Byte := s.setWidth 8

/-- R166: the result codes. -/
def ResultCode.code : ResultCode → Byte
  | .ok => 0x00
  | .queued => 0x01
  | .frameError => 0x10
  | .checkError => 0x11
  | .unknownRequest => 0x12
  | .badPayload => 0x13
  | .noSession => 0x14
  | .staleSession => 0x15
  | .sessionOpen => 0x16
  | .sessionClosing => 0x17
  | .badArgument => 0x18
  | .axisState => 0x20
  | .axisBusy => 0x21
  | .lineFault => 0x22
  | .outOfRange => 0x23
  | .notAligner => 0x24
  | .notSubscribed => 0x25
  | .tableFull => 0x30
  | .authorLimit => 0x31
  | .noSuchZone => 0x32
  | .notAuthor => 0x33
  | .generationMismatch => 0x34
  | .zoneInUse => 0x35
  | .alreadyHolder => 0x40
  | .held => 0x41
  | .alreadyWaiting => 0x42
  | .notHolder => 0x43
  | .notWaiting => 0x44
  | .badSequence => 0x50
  | .triggerInUse => 0x60
  | .noCursor => 0x61
  | .poolFull => 0x70
  | .senderLimit => 0x71
  | .noRecipient => 0x72
  | .notFound => 0x73

/-- R168: the kind codes. -/
def EventKind.code : EventKind → Byte
  | .zoneEnter => 1
  | .zoneExit => 2
  | .zonePass => 3
  | .zoneFrozen => 4
  | .zoneThawed => 5
  | .zoneChanged => 6
  | .zoneRemoved => 7
  | .axisState => 8
  | .alignDone => 9
  | .alignAborted => 10
  | .leaseGranted => 11
  | .leaseLost => 12
  | .mapReduced => 13
  | .captureReady => 14
  | .messageArrived => 15
  | .messageTaken => 16
  | .messageUndelivered => 17
  | .overflow => 18

/-- R168: the cause codes. -/
def Cause.code : Cause → Byte
  | .crossing => 1
  | .edit => 2
  | .offset => 3
  | .align => 4
  | .start => 5
  | .resume => 6
  | .stop => 7
  | .signal => 8
  | .spacing => 9
  | .range => 10
  | .expiry => 11
  | .teardown => 12
  | .cancel => 13

/-! ### Records (R168) -/

/-- The capture source: 0–3 for an input, 0x20 + n for zone n. -/
def CaptureSource.code : CaptureSource → Byte
  | .trigger t => finCode t
  | .zone z => byteOf (0x20 + z.val)

def EventSource.code : EventSource → Byte
  | .zone z => finCode z
  | .axis ax => finCode ax
  | .line o => finCode o
  | .message id => id
  | .capture c => CaptureSource.code c

/-- A detail holding an axis state has the state in bits 3–0 and the lost cause in bits 7–4. -/
def Detail.code : Detail → Byte
  | .membership m => Membership.code m
  | .axis t => AxisTag.code t ||| (AxisTag.causeCode t <<< 4)
  | .marker isSealed => boolCode isSealed

/-- R168: the 16 bytes of an event record. -/
def EventRecord.bytes (r : EventRecord) : List Byte :=
  le16 r.sequence ++
    [r.event.kind.code, (r.event.cause.map Cause.code).getD 0, (r.event.source.map EventSource.code).getD 0xFF,
      (r.event.detail.map Detail.code).getD 0xFF] ++
    le16 r.event.generation ++ signedBytes r.event.value ++ le32 r.event.timestamp

def CaptureEdge.code : CaptureEdge → Byte
  | .rise => 1
  | .fall => 2
  | .enter => 3
  | .exit => 4
  | .pass => 5

def Summary.code : Summary → Nat
  | .frozen => 0
  | .live => 1
  | .aligned => 2

/-- R168: one axis entry of a capture record. R168 names bits 3–0 of its first byte; its bits 7–4 are 0 here (DESIGN CHOICE,
log 23). -/
def AxisEntry.bytes (e : AxisEntry) : List Byte := byteOf (e.axis.val + 4 * e.summary.code) :: signedBytes e.position

/-- R168: the 14 + 5k bytes of a capture record. R168 names bit 0 of the flags byte; its bits 7–1 are 0 here (DESIGN CHOICE,
log 23). -/
def CaptureRecord.bytes (r : CaptureRecord) : List Byte :=
  le32 r.sequence ++ le32 r.timestamp ++ [r.source.code, r.edge.code] ++ le16 (r.generation.getD 0) ++
    [boolCode r.precedingDropped, byteOf r.entries.length] ++ r.entries.flatMap AxisEntry.bytes

/-! ### Request fields -/

/-- The byte at an offset of a payload or frame, 0 beyond its end. -/
def byteAt (l : List Byte) (i : Nat) : Byte := l.getD i 0

def read16 (l : List Byte) (i : Nat) : BitVec 16 := byteAt l (i + 1) ++ byteAt l i

def read24 (l : List Byte) (i : Nat) : BitVec 24 := byteAt l (i + 2) ++ read16 l i

def read32 (l : List Byte) (i : Nat) : Word := read16 l (i + 2) ++ read16 l i

def readSigned (l : List Byte) (i : Nat) : Int := (read32 l i).toInt

/-- R167: a field with an encoding of its own, at an offset; the offset is the answer when its code is not one listed. -/
def field {α : Type} (decode : Byte → Option α) (l : List Byte) (i : Nat) : Except Byte α :=
  match decode (byteAt l i) with
  | some x => .ok x
  | none => .error (byteOf i)

end Sys2Proof.Machine
end

