-- ==== Sys2Proof/Machine/Flags.lean ====
section
/-!
DEFINITION. What the part shows on its flags and output pins: the status byte (R144, R161), the condition of ATTNn (R112)
and of an output pin (R75).
-/

namespace Sys2Proof.Machine

/-- R169: while RSTN is asserted, or a supply is below its range, the part is held in part reset. -/
def State.inReset (s : State) : Bool := s.rstn || !s.supplyOk

/-- R161: bits 6–5 of the status byte; IDENTIFY reports the same code (log 19). -/
def Session.code : Session → Nat
  | .closed => 0
  | .opened => 1
  | .closing _ => 2

/-- R161: bits 4–3 of the status byte. -/
def ReqSlot.code : ReqSlot → Nat
  | .ready => 0
  | .working .. => 1
  | .answerReady _ => 2

/-- R144, R161, R113: the status byte of a port. -/
def statusByte (starting : Bool) (u : PortUnit) (q : EventQueue) : Byte :=
  byteOf ((if starting then 128 else 0) + 32 * u.session.code + 8 * u.slot.code + (if q.records.isEmpty then 0 else 4) +
    (if u.frameDiscarded then 2 else 0) + 1)

/-- R112: ATTNn is asserted while the queue is OPEN, attention is ENABLED and the queue holds a record. -/
def EventQueue.attnCondition (q : EventQueue) : Bool := q.isOpen && q.attention && !q.records.isEmpty

/-- R112: the queue drives ATTNn from its own state, within the claim that changes it. -/
def EventQueue.driveAttn (q : EventQueue) : EventQueue := { q with attn := q.attnCondition }

/-- R75: the level a driver gives its pin: OFF while OHOLD is active and the hold response is ENABLED, else the
requested value. -/
def pinLevel (ohold hold requested : Bool) : Bool := if ohold && hold then false else requested

/-- R75: a driver's pin follows its copies and OHOLD at once. -/
def Driver.drive (ohold : Bool) (d : Driver) : Driver := { d with pin := pinLevel ohold d.hold d.requested }

end Sys2Proof.Machine
end

