-- ==== Sys2Proof/Machine/Ops.lean ====
section
/-!
DEFINITION. The operations every block shares: replacing one unit of the state, handing event records to the queues
(R98), handing output values to the drivers (R74), taking a dispatched request and returning its answer to the port unit
(R148, R150).
-/

namespace Sys2Proof.Machine

/-- An outcome of this machine. -/
abbrev Result := Host.Outcome State Fault Refusal

/-- The answer an owner gives to a request (R148): a result code and the payload of its response (R165, R166). -/
structure Answer where
  result : ResultCode
  payload : List Byte
deriving DecidableEq, Repr

/-- The answer OK with a payload. -/
def Answer.ok (payload : List Byte) : Answer := ⟨.ok, payload⟩

/-- A refusal that carries no payload. -/
def Answer.refuse (r : ResultCode) : Answer := ⟨r, []⟩

/-! ### One unit of the state replaced -/

def State.setPort (p : Port) (u : PortUnit) (s : State) : State := { s with ports := s.ports.put p u }

def State.setAxis (ax : Axis) (u : AxisUnit) (s : State) : State := { s with axes := s.axes.put ax u }

def State.setQueue (p : Port) (q : EventQueue) (s : State) : State := { s with queues := s.queues.put p q }

def State.setTrigger (t : TrigIn) (u : Trigger) (s : State) : State := { s with triggers := s.triggers.put t u }

def State.setSlot (z : ZoneId) (sl : Slot) (s : State) : State := { s with zones := s.zones.put z sl }

def State.setView (ax : Axis) (v : View) (s : State) : State := { s with views := s.views.put ax v }

def State.setCursor (p : Port) (c : Option Cursor) (s : State) : State :=
  { s with capture := { s.capture with cursors := s.capture.cursors.put p c } }

def State.setPool (m : List Message) (s : State) : State := { s with pool := m }

/-! ### Handing over -/

/-- R98: an event queue with the records a producer hands to it now, in order. -/
def EventQueue.receive (src : Producer) (es : List Event) (q : EventQueue) : EventQueue :=
  { q with arriving := q.arriving ++ es.map fun e => (src, e) }

/-- The events of a list that are meant for a port, in order. -/
def eventsFor (p : Port) (es : List (Port × Event)) : List Event :=
  (es.filter fun e => e.1 = p).map fun e => e.2

/-- R98: a producer hands its records to the queues of the ports they are meant for, in the order it made them. -/
def State.hand (src : Producer) (es : List (Port × Event)) (s : State) : State :=
  { s with queues := s.queues.mapIdx fun p q => q.receive src (eventsFor p es) }

/-- R74, R75: the driver after a claim that took the output record from `old` to `new`: handed nothing when neither the
requested value nor the hold response changed, else both copies as one change. -/
def Driver.handOver (ohold : Bool) (old new : Output) (d : Driver) : Driver :=
  if old.requested = new.requested ∧ old.hold = new.hold then d
  else Driver.drive ohold { d with requested := new.requested, hold := new.hold }

/-- R74: the zone controller's claim stores its output records and hands the changed values to the drivers. -/
def State.commitOutputs (outs : Table 8 Output) (s : State) : State :=
  { s with
    outputs := outs
    drivers := s.drivers.mapIdx fun o d => d.handOver s.ohold (s.outputs.get o) (outs.get o) }

/-! ### Requests in flight -/

/-- The first entry of a list that passes a test, and the others in their order. -/
def pick {α : Type} (f : α → Bool) : List α → Option (α × List α)
  | [] => none
  | x :: xs =>
    if f x then some (x, xs)
    else match pick f xs with
      | some (y, rest) => some (y, x :: rest)
      | none => none

/-- R150: the first request in flight to an owner, and the others; claims of one port unit to one owner are taken in the
order sent. -/
def takeFirst (o : Owner) (l : List Dispatch) : Option (Dispatch × List Dispatch) := pick (fun d => d.request.owner = o) l

/-- Whether a port has a request in flight to an owner. -/
def inFlightTo (o : Owner) (l : List Dispatch) : Bool := l.any fun d => d.request.owner = o

/-- R148, R150, R162: the response formed from an answer, with the code, tag and note kept in the slot. An answer that
the slot does not await is discarded. -/
def PortUnit.receive (awaited : Bool) (a : Answer) (u : PortUnit) : PortUnit :=
  match awaited, u.slot with
  | true, .working code tag note => { u with slot := .answerReady ⟨code, tag, a.result, note, a.payload⟩ }
  | _, _ => u

/-- The answer returned to the port unit. -/
def State.answer (p : Port) (awaited : Bool) (a : Answer) (s : State) : State :=
  s.setPort p ((s.ports.get p).receive awaited a)

/-- The state with a request of a port no longer in flight. -/
def State.withInFlight (p : Port) (ds : List Dispatch) (s : State) : State :=
  s.setPort p { s.ports.get p with inFlight := ds }

/-- R148, R150: an owner takes a request that port `p` dispatched to it: the first in flight to that owner, if it is this
one. The owner's work gives the new state and the answer, which goes back to the port unit. Where the port has no such
request to be taken, there is no such step, and nothing changes (log 1). -/
def claim (p : Port) (r : Request) (work : State → State × Answer) (s : State) : Result :=
  match takeFirst r.owner (s.ports.get p).inFlight with
  | none => .next s
  | some (d, rest) =>
    if d.request = r then
      let w := work (s.withInFlight p rest)
      .next (w.1.answer p d.awaited w.2)
    else .next s

end Sys2Proof.Machine
end

