-- ==== Sys2Proof/Machine/Lines.lean ====
section
/-!
DEFINITION. The requested value of an output line (R73) and its recomputation within a claim (R74, R93).
-/

namespace Sys2Proof.Machine

/-- R73: whether a slot's zone contributes ON under a loss policy; a frozen zone contributes its kept membership under
HOLD and OFF under DROP. An EMPTY slot contributes nothing. -/
def contributes (policy : LossPolicy) (sl : Slot) : Bool :=
  match sl.zone with
  | none => false
  | some zn => zn.membership == .inside && (!zn.frozen || policy == .hold)

/-- R71: the members of a map, ascending. -/
def members (map : BitVec 32) : List ZoneId := (List.finRange 32).filter fun z => map.getLsbD z.val

/-- R73: the value the map gives: ON if at least one of its zones contributes ON. -/
def mapValue (zones : Table 32 Slot) (out : Output) : Bool :=
  (members out.map).any fun z => contributes out.policy (zones.get z)

/-- R73: the requested value of an output. -/
def requestedValue (zones : Table 32 Slot) (out : Output) : Bool :=
  match out.lease, out.force with
  | some _, .on => true
  | some _, .off => false
  | _, _ => mapValue zones out

/-- R74: an output record recomputed against a zone table. -/
def Output.recompute (zones : Table 32 Slot) (out : Output) : Output :=
  { out with requested := requestedValue zones out }

/-- R74: the outputs whose map holds a zone that the claim touched are recomputed, and no other. -/
def recomputed (zones : Table 32 Slot) (touched : ZoneId → Bool) (outs : Table 8 Output) : Table 8 Output :=
  outs.mapIdx fun _ out => if (members out.map).any touched then out.recompute zones else out

/-- R74, R93: one output record replaced within a claim, recomputed, and its changed values handed to its driver. -/
def State.setOutput (o : Line) (out : Output) (s : State) : State :=
  s.commitOutputs (s.outputs.put o (out.recompute s.zones))

/-- One output record replaced by a claim that changes no input of its requested value (R74). -/
def State.keepOutput (o : Line) (out : Output) (s : State) : State := { s with outputs := s.outputs.put o out }

end Sys2Proof.Machine
end

