-- ==== Sys2Proof/Machine/Zones.lean ====
section
/-!
DEFINITION. Evaluation of the zone table (03, sections 3.3 and 3.5): what the zone controller does with a sample, a rebase
notice, a freeze notice and a thaw notice of an axis, the zone events and the capture claims.
-/

namespace Sys2Proof.Machine

/-! ### Positions and zones -/

/-- R42: a position lies in the interval of a zone. -/
def Zone.contains (zn : Zone) (x : Int) : Bool := decide (zn.lower ≤ x) && decide (x ≤ zn.upper)

/-- R58: the lower bound of the guarded interval, saturated at the position range. -/
def Zone.guardLow (zn : Zone) : Int := max (zn.lower - zn.guard.toNat) Config.positionMin

/-- R58: the upper bound of the guarded interval, saturated at the position range. -/
def Zone.guardHigh (zn : Zone) : Int := min (zn.upper + zn.guard.toNat) Config.positionMax

/-- R57: a position lies in the guarded interval. -/
def Zone.guarded (zn : Zone) (x : Int) : Bool := decide (zn.guardLow ≤ x) && decide (x ≤ zn.guardHigh)

/-- R57: the two positions lie on opposite sides of the interval. -/
def Zone.opposite (zn : Zone) (prev cur : Int) : Bool :=
  (decide (prev < zn.lower) && decide (zn.upper < cur)) || (decide (zn.upper < prev) && decide (cur < zn.lower))

/-- R57: a sample judged against a live zone: its membership after, and the event it produces. -/
def Zone.judge (zn : Zone) (prev cur : Int) : Membership × Option Crossing :=
  match zn.membership with
  | .inside => if zn.guarded cur then (.inside, none) else (.outside, some .exit)
  | .outside =>
    if zn.contains cur then (.inside, some .enter)
    else if zn.opposite prev cur then
      if zn.guarded cur then (.inside, some .enter) else (.outside, some .pass)
    else (.outside, none)

/-- R60: a fresh evaluation: the membership from one position alone. -/
def Zone.fresh (zn : Zone) (x : Int) : Membership := if zn.contains x then .inside else .outside

/-! ### Events and capture claims -/

/-- R67: whether a filter admits an event. -/
def admits (f : Filter) (e : Event) : Bool :=
  match f, e.kind with
  | .crossings, .zoneEnter => e.cause == some .crossing
  | .crossings, .zoneExit => e.cause == some .crossing
  | _, _ => true

/-- R69: a zone event. -/
def zoneEvent (kind : EventKind) (cause : Cause) (z : ZoneId) (generation : BitVec 16) (m : Membership) (value : Int)
    (now : Word) : Event :=
  { kind := kind, cause := some cause, source := some (.zone z), detail := some (.membership m),
    generation := generation, value := value, timestamp := now }

/-- R59, R67: an event goes to every subscriber of the zone whose filter admits it. -/
def Zone.tell (zn : Zone) (e : Event) : List (Port × Event) :=
  (zn.subscribers.having fun f => match f with
    | some f => admits f e
    | none => false).map fun p => (p, e)

/-- R57: the kind of event a crossing is. -/
def Crossing.kind : Crossing → EventKind
  | .enter => .zoneEnter
  | .exit => .zoneExit
  | .pass => .zonePass

/-- R60: ZONE_ENTER or ZONE_EXIT with a cause, when a fresh evaluation gives a zone another membership. -/
def Zone.membershipEvents (zn : Zone) (z : ZoneId) (generation : BitVec 16) (m : Membership) (cause : Cause)
    (value : Int) (now : Word) : List (Port × Event) :=
  if m = zn.membership then []
  else zn.tell (zoneEvent (if m = .inside then .zoneEnter else .zoneExit) cause z generation m value now)

/-- R70: whether a zone's capture flags select an event. -/
def captures : CaptureFlags → Crossing → Bool
  | .none, _ => false
  | .both, _ => true
  | _, .pass => true
  | .enter, .enter => true
  | .exit, .exit => true
  | _, _ => false

/-! ### One claim over the zones of an axis -/

/-- What a claim makes of one zone of its axis, and the events it produces for it. -/
abbrev Evaluation := ZoneId → BitVec 16 → Zone → Zone × List (Port × Event)

/-- The zone of a slot, if it is a zone of the axis. -/
def Slot.onAxis (ax : Axis) (sl : Slot) : Option Zone :=
  match sl.zone with
  | some zn => if zn.axis = ax then some zn else none
  | none => none

/-- The zone table after an evaluation of every zone of an axis. -/
def evaluated (ax : Axis) (f : Evaluation) (zones : Table 32 Slot) : Table 32 Slot :=
  zones.mapIdx fun z sl => match sl.onAxis ax with
    | some zn => { sl with zone := some (f z sl.generation zn).1 }
    | none => sl

/-- The events of an evaluation of every zone of an axis, in ascending zone id. -/
def evaluationEvents (ax : Axis) (f : Evaluation) (zones : Table 32 Slot) : List (Port × Event) :=
  (List.finRange 32).flatMap fun z => match (zones.get z).onAxis ax with
    | some zn => (f z (zones.get z).generation zn).2
    | none => []

/-- Whether the membership of a zone differs between two tables (R59, R61). -/
def membershipChanged (before after : Table 32 Slot) (z : ZoneId) : Bool :=
  (before.get z).zone.map Zone.membership != (after.get z).zone.map Zone.membership

/-- One claim of the zone controller over its tables: the zones stored, the outputs that hold a touched zone recomputed
and handed over, the events sent (R59, R74, R93). -/
def State.zoneClaim (zones : Table 32 Slot) (touched : ZoneId → Bool) (es : List (Port × Event)) (s : State) : State :=
  (State.commitOutputs (recomputed zones touched s.outputs) { s with zones := zones }).hand .zoneController es

/-! ### Sample, rebase, freeze, thaw -/

/-- R57, R59: a live zone at a sample. -/
def sampleEvaluation (prev cur : Int) (now : Word) : Evaluation := fun z g zn =>
  if zn.frozen then (zn, [])
  else
    let j := zn.judge prev cur
    ({ zn with membership := j.1 },
      match j.2 with
      | none => []
      | some c => zn.tell (zoneEvent c.kind .crossing z g j.1 cur now))

/-- R70: the capture claims of a sample, in ascending zone id. -/
def sampleClaims (ax : Axis) (prev cur : Int) (aligned : Bool) (now : Word) (zones : Table 32 Slot) :
    List CaptureClaim :=
  (List.finRange 32).flatMap fun z => match (zones.get z).onAxis ax with
    | none => []
    | some zn =>
      if zn.frozen then []
      else match (zn.judge prev cur).2 with
        | none => []
        | some c =>
          if captures zn.capture c then
            [{ zone := z, generation := (zones.get z).generation, event := c, axis := ax, position := cur,
               aligned := aligned, time := now }]
          else []

/-- R70, R121: capture claims sent to the capture unit, which holds them without loss. -/
def State.sendClaims (cs : List CaptureClaim) (s : State) : State :=
  { s with capture := { s.capture with waiting := s.capture.waiting ++ cs } }

/-- R57, R59: the zone controller takes a sample. -/
def takeSample (ax : Axis) (cur : Int) (aligned : Bool) (s : State) : State :=
  let v := s.views.get ax
  let f := sampleEvaluation v.last cur s.timebase
  let zones := evaluated ax f s.zones
  ((s.zoneClaim zones (membershipChanged s.zones zones) (evaluationEvents ax f s.zones)).setView ax
    { v with last := cur }).sendClaims (sampleClaims ax v.last cur aligned s.timebase s.zones)

def RebaseCause.cause : RebaseCause → Cause
  | .offset => .offset
  | .align => .align

def ThawCause.cause : ThawCause → Cause
  | .start => .start
  | .resume => .resume

/-- R62, R69: the cause ZONE_FROZEN carries: STOP, or the lost cause. -/
def freezeCauseOf : FreezeCause → Cause
  | .stop => .stop
  | .lost .signal => .signal
  | .lost .spacing => .spacing
  | .lost .range => .range

/-- R60, R61: a live zone at a rebase to `cur`: judged afresh, but for a rebase to the last evaluated position `prev`,
which changes no membership and produces no event. There R61's own sentence is followed against R60, by which a zone that
rests INSIDE in its guard band would be left (DESIGN CHOICE, log 20). -/
def rebaseEvaluation (prev cur : Int) (cause : RebaseCause) (now : Word) : Evaluation := fun z g zn =>
  if zn.frozen ∨ cur = prev then (zn, [])
  else ({ zn with membership := zn.fresh cur }, zn.membershipEvents z g (zn.fresh cur) cause.cause cur now)

/-- R61: the zone controller takes a rebase notice. -/
def takeRebase (ax : Axis) (cur : Int) (cause : RebaseCause) (s : State) : State :=
  let v := s.views.get ax
  let f := rebaseEvaluation v.last cur cause s.timebase
  let zones := evaluated ax f s.zones
  (s.zoneClaim zones (membershipChanged s.zones zones) (evaluationEvents ax f s.zones)).setView ax { v with last := cur }

/-- R62: a zone at a freeze: its membership is kept; ZONE_FROZEN goes to every subscriber. -/
def freezeEvaluation (x : Int) (cause : FreezeCause) (now : Word) : Evaluation := fun z g zn =>
  ({ zn with frozen := true }, zn.tell (zoneEvent .zoneFrozen (freezeCauseOf cause) z g zn.membership x now))

/-- R62: the zone controller takes a freeze notice; the last evaluated position is not changed. -/
def takeFreeze (ax : Axis) (x : Int) (cause : FreezeCause) (s : State) : State :=
  let f := freezeEvaluation x cause s.timebase
  (s.zoneClaim (evaluated ax f s.zones) (fun z => ((s.zones.get z).onAxis ax).isSome)
    (evaluationEvents ax f s.zones)).setView ax { s.views.get ax with liveness := .frozen cause }

/-- R63: a zone at a thaw: live, freshly evaluated; ZONE_THAWED, then ENTER or EXIT if its membership changed. -/
def thawEvaluation (x : Int) (cause : ThawCause) (now : Word) : Evaluation := fun z g zn =>
  ({ zn with frozen := false, membership := zn.fresh x },
    zn.tell (zoneEvent .zoneThawed cause.cause z g (zn.fresh x) x now) ++
      zn.membershipEvents z g (zn.fresh x) cause.cause x now)

/-- R63: the zone controller takes a thaw notice. -/
def takeThaw (ax : Axis) (x : Int) (cause : ThawCause) (s : State) : State :=
  let f := thawEvaluation x cause s.timebase
  (s.zoneClaim (evaluated ax f s.zones) (fun z => ((s.zones.get z).onAxis ax).isSome)
    (evaluationEvents ax f s.zones)).setView ax { last := x, liveness := .live }

/-- An axis unit's path with what the zone controller has taken removed from its head (R22). -/
def State.withOutbox (ax : Axis) (ms : List AxisMsg) (s : State) : State :=
  s.setAxis ax { s.axes.get ax with outbox := ms }

/-! ### The meanings: each takes the head of the axis unit's path, if it is of its kind (R22, R56; log 1) -/

/-- SAMPLE (R57). -/
def execSample (ax : Axis) (s : State) : Result :=
  match (s.axes.get ax).outbox with
  | .sample x aligned :: rest => .next (takeSample ax x aligned (s.withOutbox ax rest))
  | _ => .next s

/-- REBASE_NOTICE (R61). -/
def execRebaseNotice (ax : Axis) (s : State) : Result :=
  match (s.axes.get ax).outbox with
  | .rebase x cause :: rest => .next (takeRebase ax x cause (s.withOutbox ax rest))
  | _ => .next s

/-- FREEZE_NOTICE (R62). -/
def execFreezeNotice (ax : Axis) (s : State) : Result :=
  match (s.axes.get ax).outbox with
  | .freeze x cause :: rest => .next (takeFreeze ax x cause (s.withOutbox ax rest))
  | _ => .next s

/-- THAW_NOTICE (R63). -/
def execThawNotice (ax : Axis) (s : State) : Result :=
  match (s.axes.get ax).outbox with
  | .thaw x cause :: rest => .next (takeThaw ax x cause (s.withOutbox ax rest))
  | _ => .next s

end Sys2Proof.Machine
end

