-- ==== Sys2Proof/Machine/ZoneRequests.lean ====
section
/-!
DEFINITION. The requests of the zone table (03, sections 3.2 and 3.4): DEFINE, MODIFY, DELETE, READ and LIST ZONE(S),
SUBSCRIBE and UNSUBSCRIBE ZONE.
-/

namespace Sys2Proof.Machine

/-! ### Tests -/

/-- R45: the zones a port authors, ascending. -/
def authored (zones : Table 32 Slot) (p : Port) : List ZoneId :=
  zones.having fun sl => match sl.zone with
    | some zn => zn.author = p
    | none => false

/-- R46: the lowest-numbered EMPTY slot. -/
def lowestEmpty (zones : Table 32 Slot) : Option ZoneId := (zones.having fun sl => sl.zone.isNone).head?

/-- R46, R48: bounds that make no zone: lower above upper, or an upper beyond every position. -/
def badBounds (lower upper : Int) : Bool := decide (upper < lower) || decide (Config.positionMax < upper)

/-- R71: a map holds a zone. -/
def Output.maps (z : ZoneId) (out : Output) : Bool := out.map.getLsbD z.val

/-- R50: an output puts a zone in use by another port: it maps the zone and its holder is not the requester. -/
def Output.uses (p : Port) (z : ZoneId) (out : Output) : Bool :=
  out.maps z && (match out.lease with
    | some l => l.holder != p
    | none => false)

/-- R48, R50: the first output, in ascending line number, that puts a zone in use by another port. -/
def firstUser (outs : Table 8 Output) (p : Port) (z : ZoneId) : Option Line := (outs.having (Output.uses p z)).head?

/-- R48, R166: ZONE_IN_USE names the output and its holder. -/
def zoneInUse (outs : Table 8 Output) (o : Line) : Answer :=
  ⟨.zoneInUse, [finCode o, optPortCode ((outs.get o).lease.map Lease.holder)]⟩

/-! ### Requests -/

/-- R42, R46, R47: the zone DEFINE ZONE makes: frozen as the view is, its membership a fresh evaluation when live and
OUTSIDE when frozen. -/
def newZone (p : Port) (v : View) (ax : Axis) (lower upper : Int) (guard : BitVec 16) (capture : CaptureFlags)
    (choice : Option Filter) : Zone :=
  let zn : Zone :=
    { axis := ax, lower := lower, upper := upper, guard := guard, capture := capture, author := p,
      membership := .outside, frozen := v.liveness != .live, subscribers := (Table.all 4 none).put p choice }
  { zn with membership := if v.liveness = .live then zn.fresh v.last else .outside }

/-- R46, R47: DEFINE ZONE. -/
def defineZone (p : Port) (ax : Axis) (lower upper : Int) (guard : BitVec 16) (capture : CaptureFlags)
    (choice : Option Filter) (s : State) : State × Answer :=
  match lowestEmpty s.zones with
  | none => (s, .refuse .tableFull)
  | some z =>
    if Config.zonesPerAuthor ≤ (authored s.zones p).length then (s, .refuse .authorLimit)
    else if badBounds lower upper then (s, .refuse .badArgument)
    else
      let g := (s.zones.get z).generation + 1
      let zn := newZone p (s.views.get ax) ax lower upper guard capture choice
      (s.setSlot z { generation := g, zone := some zn },
        .ok (finCode z :: le16 g ++ [zn.membership.code, boolCode zn.frozen]))

/-- R49: ZONE_CHANGED, to every subscriber except the author. -/
def changedEvents (zn : Zone) (z : ZoneId) (g : BitVec 16) (last : Int) (now : Word) : List (Port × Event) :=
  (zn.tell (zoneEvent .zoneChanged .edit z g zn.membership last now)).filter fun e => e.1 ≠ zn.author

/-- R49: a zone with new bounds, guard and flags; a live zone is freshly evaluated at the last evaluated position. -/
def modifiedZone (last : Int) (lower upper : Int) (guard : BitVec 16) (capture : CaptureFlags) (zn : Zone) : Zone :=
  let zn' := { zn with lower := lower, upper := upper, guard := guard, capture := capture }
  { zn' with membership := if zn.frozen then zn.membership else zn'.fresh last }

/-- R48, R49: MODIFY ZONE. -/
def modifyZone (p : Port) (z : ZoneId) (generation : BitVec 16) (lower upper : Int) (guard : BitVec 16)
    (capture : CaptureFlags) (s : State) : State × Answer :=
  let sl := s.zones.get z
  match sl.zone with
  | none => (s, .refuse .noSuchZone)
  | some zn =>
    if zn.author ≠ p then (s, .refuse .notAuthor)
    else if generation ≠ sl.generation then (s, ⟨.generationMismatch, le16 sl.generation⟩)
    else if badBounds lower upper then (s, .refuse .badArgument)
    else match firstUser s.outputs p z with
      | some o => (s, zoneInUse s.outputs o)
      | none =>
        let g := sl.generation + 1
        let last := (s.views.get zn.axis).last
        let zn' := modifiedZone last lower upper guard capture zn
        let zones := s.zones.put z { generation := g, zone := some zn' }
        (s.zoneClaim zones (membershipChanged s.zones zones)
            (changedEvents zn' z g last s.timebase ++ zn.membershipEvents z g zn'.membership .edit last s.timebase),
          .ok (le16 g ++ [zn'.membership.code, boolCode zn'.frozen]))

/-- R51, R52: a set of zones removed from every map. -/
def unmapped (gone : BitVec 32) (outs : Table 8 Output) : Table 8 Output :=
  outs.mapIdx fun _ out => { out with map := out.map &&& ~~~gone }

/-- The set that holds one zone. -/
def zoneBit (z : ZoneId) : BitVec 32 := BitVec.twoPow 32 z.val

/-- R51, R52: ZONE_REMOVED with a cause, at the removal of a zone. -/
def removedEvents (zn : Zone) (z : ZoneId) (g : BitVec 16) (cause : Cause) (last : Int) (now : Word) :
    List (Port × Event) :=
  zn.tell (zoneEvent .zoneRemoved cause z g zn.membership last now)

/-- R51: the outputs after a zone has left every map, those that held it recomputed. -/
def deletedOutputs (zones : Table 32 Slot) (gone : BitVec 32) (outs : Table 8 Output) : Table 8 Output :=
  (unmapped gone outs).mapIdx fun o out => if (outs.get o).map &&& gone = 0 then out else out.recompute zones

/-- R51: DELETE ZONE. -/
def deleteZone (p : Port) (z : ZoneId) (generation : BitVec 16) (s : State) : State × Answer :=
  let sl := s.zones.get z
  match sl.zone with
  | none => (s, .refuse .noSuchZone)
  | some zn =>
    if zn.author ≠ p then (s, .refuse .notAuthor)
    else if generation ≠ sl.generation then (s, ⟨.generationMismatch, le16 sl.generation⟩)
    else match firstUser s.outputs p z with
      | some o => (s, zoneInUse s.outputs o)
      | none =>
        let zones := s.zones.put z { sl with zone := none }
        let es := (removedEvents zn z sl.generation .edit (s.views.get zn.axis).last s.timebase).filter fun e => e.1 ≠ p
        ((State.commitOutputs (deletedOutputs zones (zoneBit z) s.outputs) { s with zones := zones }).hand
            .zoneController es,
          .ok (le16 sl.generation))

/-- R53, R165: the response payload of READ ZONE. -/
def readZoneBytes (z : ZoneId) (g : BitVec 16) (v : View) (zn : Zone) : List Byte :=
  let subs := (List.finRange 4).flatMap fun p => match zn.subscribers.get p with
    | some f => [finCode p, f.code]
    | none => []
  finCode z :: le16 g ++ [finCode zn.axis] ++ signedBytes zn.lower ++ signedBytes zn.upper ++ le16 zn.guard ++
    [zn.capture.code, finCode zn.author, zn.membership.code, boolCode zn.frozen,
      if zn.frozen then v.liveness.code else 0] ++ signedBytes v.last ++ [byteOf (subs.length / 2)] ++ subs

/-- R53: READ ZONE. -/
def readZone (z : ZoneId) (s : State) : State × Answer :=
  let sl := s.zones.get z
  match sl.zone with
  | none => (s, ⟨.noSuchZone, le16 sl.generation⟩)
  | some zn => (s, .ok (readZoneBytes z sl.generation (s.views.get zn.axis) zn))

/-- R54, R165: one entry of LIST ZONES. R165 names bits 1 and 0 of its last byte; its bits 7–2 are 0 here (DESIGN CHOICE,
log 23). -/
def listEntry (z : ZoneId) (sl : Slot) : List Byte :=
  match sl.zone with
  | none => []
  | some zn => [finCode z, finCode zn.axis, finCode zn.author] ++ le16 sl.generation ++
      [zn.membership.code ||| (boolCode zn.frozen <<< 1)]

/-- R54: the DEFINED zones from an id on, ascending. -/
def definedFrom (zones : Table 32 Slot) (start : ZoneId) : List ZoneId :=
  (zones.having fun sl => sl.zone.isSome).filter fun z => decide (start ≤ z)

/-- R54: LIST ZONES: at most 16 entries, and the next DEFINED id, 0xFF when there is none. -/
def listZones (start : ZoneId) (s : State) : State × Answer :=
  let ids := definedFrom s.zones start
  let shown := ids.take Config.listZonesMax
  let next : Byte := match (ids.drop Config.listZonesMax).head? with
    | some z => finCode z
    | none => 0xFF
  (s, .ok ([byteOf shown.length, next] ++ shown.flatMap fun z => listEntry z (s.zones.get z)))

/-- R65: SUBSCRIBE ZONE: the entry is added, or its filter replaced. -/
def subscribeZone (p : Port) (z : ZoneId) (generation : BitVec 16) (filter : Filter) (s : State) : State × Answer :=
  let sl := s.zones.get z
  match sl.zone with
  | none => (s, .refuse .noSuchZone)
  | some zn =>
    if generation ≠ sl.generation then (s, ⟨.generationMismatch, le16 sl.generation⟩)
    else
      (s.setSlot z { sl with zone := some { zn with subscribers := zn.subscribers.put p (some filter) } },
        .ok ([zn.membership.code, boolCode zn.frozen] ++ le16 sl.generation))

/-- R66: UNSUBSCRIBE ZONE. -/
def unsubscribeZone (p : Port) (z : ZoneId) (s : State) : State × Answer :=
  let sl := s.zones.get z
  match sl.zone with
  | none => (s, .refuse .noSuchZone)
  | some zn =>
    if (zn.subscribers.get p).isNone then (s, .refuse .notSubscribed)
    else (s.setSlot z { sl with zone := some { zn with subscribers := zn.subscribers.put p none } }, .ok [])

/-! ### The meanings -/

/-- DEFINE_ZONE (R46). -/
def execDefineZone (p : Port) (ax : Axis) (lower upper : Int) (guard : BitVec 16) (capture : CaptureFlags)
    (choice : Option Filter) (s : State) : Result :=
  claim p (.defineZone ax lower upper guard capture choice) (defineZone p ax lower upper guard capture choice) s

/-- MODIFY_ZONE (R49). -/
def execModifyZone (p : Port) (z : ZoneId) (generation : BitVec 16) (lower upper : Int) (guard : BitVec 16)
    (capture : CaptureFlags) (s : State) : Result :=
  claim p (.modifyZone z generation lower upper guard capture) (modifyZone p z generation lower upper guard capture) s

/-- DELETE_ZONE (R51). -/
def execDeleteZone (p : Port) (z : ZoneId) (generation : BitVec 16) (s : State) : Result :=
  claim p (.deleteZone z generation) (deleteZone p z generation) s

/-- READ_ZONE (R53). -/
def execReadZone (p : Port) (z : ZoneId) (s : State) : Result := claim p (.readZone z) (readZone z) s

/-- LIST_ZONES (R54). -/
def execListZones (p : Port) (start : ZoneId) (s : State) : Result := claim p (.listZones start) (listZones start) s

/-- SUBSCRIBE_ZONE (R65). -/
def execSubscribeZone (p : Port) (z : ZoneId) (generation : BitVec 16) (filter : Filter) (s : State) : Result :=
  claim p (.subscribeZone z generation filter) (subscribeZone p z generation filter) s

/-- UNSUBSCRIBE_ZONE (R66). -/
def execUnsubscribeZone (p : Port) (z : ZoneId) (s : State) : Result :=
  claim p (.unsubscribeZone z) (unsubscribeZone p z) s

end Sys2Proof.Machine
end

