-- ==== Sys2Proof/Machine/Leases.lean ====
section
/-!
DEFINITION. Output lines and leases (04): the lease requests, the end of a lease (R82), expiry, the holder's requests, READ
OUTPUTS, OHOLD, and stage 5 of a teardown at the zone controller (R52, R91).
-/

namespace Sys2Proof.Machine

/-! ### Leases -/

/-- R78: a duration in range. -/
def durationOk (d : Nat) : Bool := decide (Config.leaseMin ≤ d) && decide (d ≤ Config.leaseMax)

/-- R77: a lease granted now: its timer is set to the duration plus one tick. -/
def newLease (p : Port) (d : Nat) : Lease := { holder := p, duration := d, timer := d + 1 }

/-- R90: a lease event: its source is the output, its generation 0, its value the duration. -/
def leaseEvent (kind : EventKind) (cause : Cause) (o : Line) (d : Nat) (now : Word) : Event :=
  { kind := kind, cause := some cause, source := some (.line o), detail := none, generation := 0, value := d,
    timestamp := now }

/-- Whether a port holds the lease of an output. -/
def Output.heldBy (p : Port) (out : Output) : Bool :=
  match out.lease with
  | some l => l.holder = p
  | none => false

/-- R82: the end of a lease: holder, duration and timer become absent and the force NONE; the head of the wait queue, if
there is one, becomes holder with a fresh timer. Map, loss policy and hold response are kept. -/
def Output.endLease (out : Output) : Output :=
  match out.waiters with
  | [] => { out with lease := none, force := .none }
  | w :: ws => { out with lease := some (newLease w.port w.duration), waiters := ws, force := .none }

/-- R82, R90: the events of a lease end: LEASE_LOST to the former holder when the lease expired, then LEASE_GRANTED to
the port that was at the head of the wait queue. -/
def Output.endEvents (o : Line) (cause : Cause) (now : Word) (out : Output) : List (Port × Event) :=
  (match out.lease with
    | some l => if cause = .expiry then [(l.holder, leaseEvent .leaseLost .expiry o l.duration now)] else []
    | none => []) ++
  (match out.waiters with
    | [] => []
    | w :: _ => [(w.port, leaseEvent .leaseGranted cause o w.duration now)])

/-- R82: the claim that ends the lease of an output: the requested value is recomputed, the events are sent. -/
def State.endLease (o : Line) (cause : Cause) (s : State) : State :=
  (s.setOutput o (s.outputs.get o).endLease).hand .zoneController ((s.outputs.get o).endEvents o cause s.timebase)

/-- R78: the place, 1 to 3, of a port in a wait queue. -/
def placeOf (p : Port) (ws : List Waiter) : Option Nat := (ws.findIdx? fun w => w.port = p).map fun i => i + 1

/-- R78: CLAIM OUTPUT. -/
def claimOutput (p : Port) (o : Line) (duration : BitVec 16) (wait : Bool) (s : State) : State × Answer :=
  let out := s.outputs.get o
  let d := duration.toNat
  if !durationOk d then (s, .refuse .badArgument)
  else match out.lease with
    | none => (s.keepOutput o { out with lease := some (newLease p d) }, .ok (durationBytes d))
    | some l =>
      if l.holder = p then (s, .refuse .alreadyHolder)
      else if !wait then (s, ⟨.held, [finCode l.holder]⟩)
      else match placeOf p out.waiters with
        | some k => (s, ⟨.alreadyWaiting, [byteOf k]⟩)
        | none =>
          (s.keepOutput o { out with waiters := out.waiters ++ [{ port := p, duration := d }] },
            ⟨.queued, [byteOf (out.waiters.length + 1)]⟩)

/-- R80: RENEW LEASE; a duration field of 0 is none given (R165). -/
def renewLease (p : Port) (o : Line) (duration : BitVec 16) (s : State) : State × Answer :=
  let out := s.outputs.get o
  match out.lease with
  | none => (s, .refuse .notHolder)
  | some l =>
    if l.holder ≠ p then (s, .refuse .notHolder)
    else if duration ≠ 0 ∧ !durationOk duration.toNat then (s, .refuse .badArgument)
    else
      let d := if duration = 0 then l.duration else duration.toNat
      (s.keepOutput o { out with lease := some (newLease p d) }, .ok (durationBytes d))

/-- R81: RELEASE OUTPUT. -/
def releaseOutput (p : Port) (o : Line) (s : State) : State × Answer :=
  let out := s.outputs.get o
  if !out.heldBy p then (s, .refuse .notHolder)
  else (s.endLease o .cancel, .ok [optPortCode (out.endLease.lease.map Lease.holder)])

/-- R79, R84: a port's entry removed from a wait queue; the entries behind move up. -/
def withoutWaiter (p : Port) (ws : List Waiter) : List Waiter := ws.filter fun w => w.port ≠ p

/-- R84: CANCEL WAIT. -/
def cancelWait (p : Port) (o : Line) (s : State) : State × Answer :=
  let out := s.outputs.get o
  if (placeOf p out.waiters).isNone then (s, .refuse .notWaiting)
  else (s.keepOutput o { out with waiters := withoutWaiter p out.waiters }, .ok [])

/-- R83: the zone controller takes the expiry claim of an output: it ends a lease whose timer stands at 0, and is
discarded in any other case. -/
def takeExpiry (o : Line) (s : State) : State :=
  let out := { s.outputs.get o with expiryClaim := false }
  let s' := s.keepOutput o out
  match out.lease with
  | some l => if l.timer = 0 then s'.endLease o .expiry else s'
  | none => s'

/-- R77: a tick takes one from a present timer; a timer that reaches 0 presents an expiry claim and stays at 0. -/
def Output.tick (out : Output) : Output :=
  match out.lease with
  | none => out
  | some l =>
    if l.timer = 0 then out
    else { out with lease := some { l with timer := l.timer - 1 }, expiryClaim := out.expiryClaim || l.timer = 1 }

/-- R77: a tick reaches every output. -/
def State.tickLeases (s : State) : State := { s with outputs := s.outputs.mapIdx fun _ out => out.tick }

/-! ### What the holder may do -/

/-- R86: the lowest id of a set that names an EMPTY slot. -/
def lowestUndefined (zones : Table 32 Slot) (set : BitVec 32) : Option ZoneId :=
  (members set).find? fun z => (zones.get z).zone.isNone

/-- R86–R88: an output record changed by its holder; the answer is the requested value after the request. -/
def State.holderChange (o : Line) (out : Output) (s : State) : State × Answer :=
  (s.setOutput o out, .ok [boolCode (requestedValue s.zones out)])

/-- R86: MAP OUTPUT. -/
def mapOutput (p : Port) (o : Line) (set : BitVec 32) (s : State) : State × Answer :=
  let out := s.outputs.get o
  if !out.heldBy p then (s, .refuse .notHolder)
  else match lowestUndefined s.zones set with
    | some z => (s, ⟨.noSuchZone, [finCode z]⟩)
    | none => s.holderChange o { out with map := set }

/-- R87: FORCE OUTPUT. -/
def forceOutput (p : Port) (o : Line) (force : Force) (s : State) : State × Answer :=
  let out := s.outputs.get o
  if !out.heldBy p then (s, .refuse .notHolder) else s.holderChange o { out with force := force }

/-- R88: CONFIGURE OUTPUT. -/
def configureOutput (p : Port) (o : Line) (policy : LossPolicy) (hold : Bool) (s : State) : State × Answer :=
  let out := s.outputs.get o
  if !out.heldBy p then (s, .refuse .notHolder)
  else s.holderChange o { out with policy := policy, hold := hold }

/-- R89, R165: the 15 bytes of a READ OUTPUTS entry. -/
def outputEntry (out : Output) (d : Driver) : List Byte :=
  [boolCode d.pin, boolCode out.requested, out.force.code, out.policy.code, boolCode out.hold,
    optPortCode (out.lease.map Lease.holder)] ++
    durationBytes ((out.lease.map Lease.duration).getD 0) ++ durationBytes ((out.lease.map Lease.timer).getD 0) ++
    [byteOf out.waiters.length] ++ le32 out.map

/-- R89: READ OUTPUTS. -/
def readOutputs (s : State) : State × Answer :=
  (s, .ok ((List.finRange 8).flatMap (fun o => outputEntry (s.outputs.get o) (s.drivers.get o)) ++
    boolCode s.ohold :: le32 s.timebase))

/-! ### Teardown -/

/-- R91: an output after the lease part of stage 5: the port leaves the wait queue, then its lease ends. -/
def Output.tearDown (p : Port) (out : Output) : Output :=
  let out := { out with waiters := withoutWaiter p out.waiters }
  if out.heldBy p then out.endLease else out

/-- R91: the events of the lease part of stage 5, in ascending line number. -/
def tearDownLeaseEvents (p : Port) (now : Word) (outs : Table 8 Output) : List (Port × Event) :=
  (List.finRange 8).flatMap fun o =>
    let out := { outs.get o with waiters := withoutWaiter p (outs.get o).waiters }
    if out.heldBy p then out.endEvents o .teardown now else []

/-- R68: a slot after the subscription part of stage 5. -/
def Slot.unsubscribe (p : Port) (sl : Slot) : Slot :=
  { sl with zone := sl.zone.map fun zn => { zn with subscribers := zn.subscribers.put p none } }

/-- R52: whether a slot's zone is authored by a port. -/
def Slot.authoredBy (p : Port) (sl : Slot) : Bool :=
  match sl.zone with
  | some zn => zn.author = p
  | none => false

/-- R52: a slot after stage 5: its zone deleted if the port authors it, its generation kept. -/
def Slot.tearDown (p : Port) (sl : Slot) : Slot :=
  if sl.authoredBy p then { sl with zone := none } else sl.unsubscribe p

/-- The set of the zones that a test passes. -/
def zoneSet (f : ZoneId → Bool) : BitVec 32 := BitVec.ofFnLE f

/-- R90: MAP_REDUCED names the output, the zone that left its map, and that zone's generation. -/
def mapReduced (o : Line) (z : ZoneId) (g : BitVec 16) (now : Word) : Event :=
  { kind := .mapReduced, cause := some .teardown, source := some (.line o), detail := none, generation := g,
    value := z.val, timestamp := now }

/-- R52: the events of the deletion of one authored zone: ZONE_REMOVED to the remaining subscribers, then MAP_REDUCED to
the holder of each output that held it, in ascending line number. -/
def tearDownZoneEvents (p : Port) (s : State) (outs : Table 8 Output) (z : ZoneId) : List (Port × Event) :=
  let sl := s.zones.get z
  match sl.zone with
  | none => []
  | some zn =>
    if zn.author ≠ p then []
    else
      removedEvents { zn with subscribers := zn.subscribers.put p none } z sl.generation .teardown
          (s.views.get zn.axis).last s.timebase ++
        (List.finRange 8).flatMap fun o => match (outs.get o).lease with
          | some l => if (outs.get o).maps z then [(l.holder, mapReduced o z sl.generation s.timebase)] else []
          | none => []

/-- R52, R91: stage 5 of a port's teardown at the zone controller, one claim. The outputs whose lease ended or whose map
was reduced are recomputed, from the tables as the claim leaves them. The events go in the fixed order of parts that R52 and
R91 give, every LEASE_GRANTED before every MAP_REDUCED and these zone by zone; R90's ascending line number orders the events
within a part and within one zone (DESIGN CHOICE, log 21). -/
def zoneTearDown (p : Port) (s : State) : State :=
  let outs := s.outputs.mapIdx fun _ out => out.tearDown p
  let gone := zoneSet fun z => (s.zones.get z).authoredBy p
  let zones := s.zones.mapIdx fun _ sl => sl.tearDown p
  let outs' := (unmapped gone outs).mapIdx fun o out =>
    if (outs.get o).map &&& gone = 0 ∧ !(s.outputs.get o).heldBy p then out else out.recompute zones
  (State.commitOutputs outs' { s with zones := zones }).hand .zoneController
    (tearDownLeaseEvents p s.timebase s.outputs ++ (List.finRange 32).flatMap (tearDownZoneEvents p s outs))

/-! ### The meanings -/

/-- CLAIM_OUTPUT (R78). -/
def execClaimOutput (p : Port) (o : Line) (duration : BitVec 16) (wait : Bool) (s : State) : Result :=
  claim p (.claimOutput o duration wait) (claimOutput p o duration wait) s

/-- RENEW_LEASE (R80). -/
def execRenewLease (p : Port) (o : Line) (duration : BitVec 16) (s : State) : Result :=
  claim p (.renewLease o duration) (renewLease p o duration) s

/-- RELEASE_OUTPUT (R81). -/
def execReleaseOutput (p : Port) (o : Line) (s : State) : Result := claim p (.releaseOutput o) (releaseOutput p o) s

/-- CANCEL_WAIT (R84). -/
def execCancelWait (p : Port) (o : Line) (s : State) : Result := claim p (.cancelWait o) (cancelWait p o) s

/-- MAP_OUTPUT (R86). -/
def execMapOutput (p : Port) (o : Line) (zones : BitVec 32) (s : State) : Result :=
  claim p (.mapOutput o zones) (mapOutput p o zones) s

/-- FORCE_OUTPUT (R87). -/
def execForceOutput (p : Port) (o : Line) (force : Force) (s : State) : Result :=
  claim p (.forceOutput o force) (forceOutput p o force) s

/-- CONFIGURE_OUTPUT (R88). -/
def execConfigureOutput (p : Port) (o : Line) (policy : LossPolicy) (hold : Bool) (s : State) : Result :=
  claim p (.configureOutput o policy hold) (configureOutput p o policy hold) s

/-- READ_OUTPUTS (R89). -/
def execReadOutputs (p : Port) (s : State) : Result := claim p .readOutputs readOutputs s

/-- LEASE_EXPIRY (R83): the zone controller takes the expiry claim the output presented; without one there is nothing to
take (log 1). -/
def execLeaseExpiry (o : Line) (s : State) : Result :=
  if (s.outputs.get o).expiryClaim then .next (takeExpiry o s) else .next s

/-- OHOLD_CHANGE (R76): every driver sets its pin from its copies and the new level; no record changes. -/
def execOholdChange (active : Bool) (s : State) : Result :=
  .next { s with ohold := active, drivers := s.drivers.mapIdx fun _ d => d.drive active }

end Sys2Proof.Machine
end

