-- ==== Sys2Proof/Machine/Resets.lean ====
section
/-!
DEFINITION. Part reset, the start-up period, the supply, the timebase and the lease ticks (10, R77, R159).
-/

namespace Sys2Proof.Machine

/-! ### Time -/

/-- R169, R170: `n` microseconds pass: the timebase counts, modulo 2^32, and the start-up period ends when it reaches
3,000. -/
def State.passTime (n : Nat) (s : State) : State :=
  { s with
    timebase := s.timebase + BitVec.ofNat 32 n
    starting := s.starting && decide (s.timebase.toNat + n < Config.startUpEnd) }

/-- R77, R170: the lease ticks fall every 1,000 µs from the release of RSTN: time runs on to the next tick instant, and
the tick takes one from every present timer (log 2). -/
def State.tick (s : State) : State :=
  State.tickLeases { s.passTime (Config.tickSpacing - s.sinceTick) with sinceTick := 0 }

/-- R170: one microsecond passes, with the lease tick that may fall at its end. Nothing passes while the part is held in
reset: the timebase is held at 0. -/
def State.microsecond (s : State) : State :=
  if s.inReset then s
  else if Config.tickSpacing ≤ s.sinceTick + 1 then s.tick
  else { s.passTime 1 with sinceTick := s.sinceTick + 1 }

/-! ### Part reset -/

/-- R159, R169: every block at its after-reset values, any teardown ended, claims and records not yet taken discarded, the
timebase held at 0. What follows the pins (PRSTn, OHOLD, trigger levels, line faults, the phase of A and B) is not
changed, nor are the commands that wait. -/
def State.resetBlocks (s : State) : State :=
  { s with
    timebase := 0
    sinceTick := 0
    starting := false
    ports := s.ports.mapIdx fun _ u => PortUnit.reset u.prstn
    axes := s.axes.mapIdx fun _ u => AxisUnit.reset u.lineFault u.phase
    views := .all 4 .reset
    zones := .all 32 .reset
    outputs := .all 8 .reset
    drivers := .all 8 .reset
    queues := .all 4 .reset
    triggers := s.triggers.mapIdx fun _ t => Trigger.reset t.level
    capture := .reset
    pool := [] }

/-- R169: the start-up period begins, if the part is no longer held in reset. -/
def State.begin (s : State) : State :=
  if s.inReset then s else { s with timebase := 0, sinceTick := 0, starting := true }

/-! ### The meanings -/

/-- RSTN_ASSERT (R159, R169). -/
def execRstnAssert (s : State) : Result := .next { s.resetBlocks with rstn := true }

/-- RSTN_RELEASE (R169): a change from low to high; the timebase starts from 0 and the start-up period begins, unless a
supply is below its range. A level already high does not change (log 1). -/
def execRstnRelease (s : State) : Result := if s.rstn then .next (State.begin { s with rstn := false }) else .next s

/-- SUPPLY_BELOW_RANGE (10.5): the part behaves as under RSTN asserted. -/
def execSupplyBelowRange (s : State) : Result := .next { s.resetBlocks with supplyOk := false }

/-- SUPPLY_RETURN_TO_RANGE (10.5): the part no longer behaves as under RSTN asserted; unless RSTN is, the start-up period
begins as at a release of RSTN (log 8). -/
def execSupplyReturnToRange (s : State) : Result :=
  if s.supplyOk then .next s else .next (State.begin { s with supplyOk := true })

/-- STARTUP_PERIOD_END (R169): the timebase runs on to 3,000 and STARTING becomes absent (log 2). -/
def execStartupPeriodEnd (s : State) : Result :=
  if s.starting && !s.inReset then .next { s with timebase := 3000, sinceTick := 0, starting := false } else .next s

/-- LEASE_TICK (R77). -/
def execLeaseTick (s : State) : Result := .next (if s.inReset then s else s.tick)

end Sys2Proof.Machine
end

