-- ==== Sys2Proof/Machine/Axis.lean ====
section
/-!
DEFINITION. The axis unit apart from alignment (01): decode, count, position, travel window, the axis state machine, the
requests START, STOP, RESUME, SET OFFSET, CONFIGURE AXIS, the subscriptions and READ AXES. Each meaning of a request is
the claim (`claim`) of the axis unit's own work.
-/

namespace Sys2Proof.Machine

/-! ### Position and window -/

/-- R6: the position is the count plus the offset. -/
def AxisUnit.position (u : AxisUnit) : Int := u.count + u.offset

/-- R7: a position lies inside the travel window. -/
def AxisUnit.inWindow (u : AxisUnit) (x : Int) : Bool := decide (u.config.low ≤ x) && decide (x ≤ u.config.high)

/-- R7: a count lies strictly inside its saturation bounds. -/
def countInside (c : Int) : Bool := decide (Config.countMin < c) && decide (c < Config.countMax)

/-- R7: the condition a live axis must meet. -/
def AxisUnit.inRange (u : AxisUnit) : Bool := u.inWindow u.position && countInside u.count

/-- Live: FREE, ARMED or ALIGNED (00, Terms). -/
def AxisState.isLive : AxisState → Bool
  | .idle => false
  | .free => true
  | .armed _ => true
  | .aligned => true
  | .lost _ => false

/-! ### Events and notices -/

/-- The cause of an event that reports a lost cause (R18). -/
def lostCauseOf : LostCause → Cause
  | .signal => .signal
  | .spacing => .spacing
  | .range => .range

/-- An event of an axis unit (R18, R34): its source is the axis, its generation 0, its value the position. -/
def axisEvent (kind : EventKind) (cause : Cause) (ax : Axis) (now : Word) (tag : AxisTag) (value : Int) : Event :=
  { kind := kind, cause := some cause, source := some (.axis ax), detail := some (.axis tag), generation := 0,
    value := value, timestamp := now }

/-- R18: AXIS_STATE for the state the unit now has, to each port of its subscriber set. -/
def AxisUnit.stateEvents (ax : Axis) (now : Word) (cause : Cause) (u : AxisUnit) : List (Port × Event) :=
  (u.subscribers.having id).map fun p => (p, axisEvent .axisState cause ax now u.state.tag u.position)

/-- R22: a notice joins the unit's path to the zone controller; notices are not coalesced. -/
def AxisUnit.notify (m : AxisMsg) (u : AxisUnit) : AxisUnit := { u with outbox := u.outbox ++ [m] }

/-- R21, R22: a sample joins the path, replacing an undelivered sample that has no notice after it. -/
def AxisUnit.pushSample (aligned : Bool) (u : AxisUnit) : AxisUnit :=
  match u.outbox.getLast? with
  | some (.sample _ _) => { u with outbox := u.outbox.dropLast ++ [.sample u.position aligned] }
  | _ => u.notify (.sample u.position aligned)

/-- R35: ALIGN_ABORTED to the aligner, if the unit was ARMED; `tag` is the state after the end. -/
def AxisUnit.abortedEvents (ax : Axis) (now : Word) (cause : Cause) (tag : AxisTag) (u : AxisUnit) :
    List (Port × Event) :=
  match u.state with
  | .armed a => [(a.aligner, axisEvent .alignAborted cause ax now tag u.position)]
  | _ => []

/-- R10: entry to LOST: the lost cause is set, an alignment is aborted (before AXIS_STATE, R35), AXIS_STATE goes to the
subscribers and a freeze notice to the zone controller. -/
def AxisUnit.enterLost (ax : Axis) (now : Word) (c : LostCause) (u : AxisUnit) : AxisUnit × List (Port × Event) :=
  let u' := { u with state := .lost c }
  (u'.notify (.freeze u.position (.lost c)),
    u.abortedEvents ax now (lostCauseOf c) (.lost c) ++ u'.stateEvents ax now (lostCauseOf c))

/-- R15: an axis unit takes a step whole: its new state, and its events handed over. -/
def State.axisStep (ax : Axis) (w : AxisUnit × List (Port × Event)) (s : State) : State :=
  (s.setAxis ax w.1).hand (.axisUnit ax) w.2

/-! ### Decode and count -/

/-- R1: the next state of the positive sequence, in which A leads B. -/
def Phase.next : Phase → Phase
  | .lowLow => .highLow
  | .highLow => .highHigh
  | .highHigh => .lowHigh
  | .lowHigh => .lowLow

/-- R1: the previous state of the positive sequence. -/
def Phase.prev : Phase → Phase
  | .lowLow => .lowHigh
  | .highLow => .lowLow
  | .highHigh => .highLow
  | .lowHigh => .highHigh

/-- R1: the state in which A and B have both changed: a skipped state. -/
def Phase.opposite : Phase → Phase
  | .lowLow => .highHigh
  | .highLow => .lowHigh
  | .highHigh => .lowLow
  | .lowHigh => .highLow

/-- R1: the phase after a raw step. -/
def Phase.step : StepDir → Phase → Phase
  | .positive => Phase.next
  | .negative => Phase.prev

/-- The level of A in a phase. -/
def Phase.levelA : Phase → Bool
  | .lowLow => false
  | .highLow => true
  | .highHigh => true
  | .lowHigh => false

/-- The level of B in a phase. -/
def Phase.levelB : Phase → Bool
  | .lowLow => false
  | .highLow => false
  | .highHigh => true
  | .lowHigh => true

/-- R1: with direction INVERTED the two directions are exchanged. -/
def Direction.apply : Direction → StepDir → StepDir
  | .normal, d => d
  | .inverted, .positive => .negative
  | .inverted, .negative => .positive

/-- R2: whether the multiplier counts the step between two phases: all with 4, those in which A changes with 2, those
between (A low, B low) and (A high, B low) with 1. -/
def counted (m : Multiplier) (a b : Phase) : Bool :=
  match m with
  | .x4 => true
  | .x2 => a.levelA != b.levelA
  | .x1 => !a.levelB && !b.levelB

/-- R2, R5: a counted step, with saturation. -/
def countStep (d : StepDir) (c : Int) : Int :=
  match d with
  | .positive => if Config.countMax < c + 1 then Config.countMax else c + 1
  | .negative => if c - 1 < Config.countMin then Config.countMin else c - 1

/-- R2, R5, R7, R21: a counted step outside IDLE. In LOST the count alone changes; in a live state a changed count
produces a sample, and a broken condition of R7 then takes the axis to LOST(RANGE). -/
def AxisUnit.countedStep (ax : Axis) (now : Word) (d : StepDir) (u : AxisUnit) : AxisUnit × List (Port × Event) :=
  let u1 := { u with count := countStep d u.count }
  if u.state.isLive then
    let u2 := if u1.count = u.count then u1 else u1.pushSample (u.state = .aligned)
    if u2.inRange then (u2, []) else u2.enterLost ax now .range
  else (u1, [])

/-- R1, R2: a phase transition by one step. The phase is tracked in every state; outside IDLE the step sets the last step
direction, and changes the count if the multiplier counts it. -/
def AxisUnit.encoderStep (ax : Axis) (now : Word) (raw : StepDir) (u : AxisUnit) : AxisUnit × List (Port × Event) :=
  let u0 := { u with phase := u.phase.step raw }
  if u.state = .idle then (u0, [])
  else
    let d := Direction.apply u.config.direction raw
    let u1 := { u0 with lastStep := some d }
    if counted u.config.multiplier u.phase u0.phase then u1.countedStep ax now d else (u1, [])

/-- R3: a signal fault takes a live axis to LOST(SIGNAL) and changes nothing in IDLE and LOST. -/
def AxisUnit.signalFault (ax : Axis) (now : Word) (u : AxisUnit) : AxisUnit × List (Port × Event) :=
  if u.state.isLive then u.enterLost ax now .signal else (u, [])

/-! ### Requests -/

/-- R165: the record of CONFIGURE AXIS, as stored. -/
def AxisConfig.bytes (ax : Axis) (c : AxisConfig) : List Byte :=
  [finCode ax, c.multiplier.code, c.direction.code] ++ signedBytes c.low ++ signedBytes c.high ++ le24 c.pitch ++
    [finCode c.tolerance]

/-- R8: CONFIGURE AXIS. -/
def configureAxis (ax : Axis) (multiplier : Byte) (direction : Direction) (low high : Int) (pitch : BitVec 24)
    (tolerance : Fin 16) (s : State) : State × Answer :=
  let u := s.axes.get ax
  if u.state ≠ .idle then (s, .refuse .axisState)
  else if high < low ∨ (1 ≤ pitch.toNat ∧ pitch.toNat ≤ 7) then (s, .refuse .badArgument)
  else match Multiplier.ofCode multiplier with
    | none => (s, .refuse .badArgument)
    | some m =>
      let c : AxisConfig :=
        { multiplier := m, direction := direction, low := low, high := high, pitch := pitch, tolerance := tolerance }
      (s.setAxis ax { u with config := c }, .ok (c.bytes ax))

/-- R11: an axis unit started: count 0, the last step direction and the last index count absent. -/
def AxisUnit.started (u : AxisUnit) : AxisUnit :=
  { u with state := .free, count := 0, lastStep := none, lastIndex := none }

/-- R166: the payload of OUT_OF_RANGE: 1 preset, 2 position. -/
def outOfRange (which : Byte) : Answer := ⟨.outOfRange, [which]⟩

/-- R11: START. -/
def startAxis (ax : Axis) (s : State) : State × Answer :=
  let u := s.axes.get ax
  if u.state ≠ .idle then (s, .refuse .axisState)
  else if u.lineFault then (s, .refuse .lineFault)
  else if !u.inWindow u.offset then (s, outOfRange 2)
  else
    let u' := u.started
    (s.axisStep ax (u'.notify (.thaw u'.position .start), u'.stateEvents ax s.timebase .start),
      .ok (signedBytes u'.position))

/-- R12: STOP. -/
def stopAxis (ax : Axis) (s : State) : State × Answer :=
  let u := s.axes.get ax
  if u.state = .idle then (s, .ok [])
  else
    let u' := { u with state := .idle }
    (s.axisStep ax (u'.notify (.freeze u.position .stop),
      u.abortedEvents ax s.timebase .stop .idle ++ u'.stateEvents ax s.timebase .stop), .ok [])

/-- R13: whether an axis is LOST. -/
def AxisState.isLost : AxisState → Bool
  | .lost _ => true
  | _ => false

/-- R13: RESUME. -/
def resumeAxis (ax : Axis) (s : State) : State × Answer :=
  let u := s.axes.get ax
  if !u.state.isLost then (s, .refuse .axisState)
  else if u.lineFault then (s, .refuse .lineFault)
  else if !u.inRange then (s, outOfRange 2)
  else
    let u' := { u with state := .free }
    (s.axisStep ax (u'.notify (.thaw u.position .resume), u'.stateEvents ax s.timebase .resume),
      .ok (signedBytes u.position))

/-- R14: whether an offset lies in the offset range. -/
def offsetInRange (x : Int) : Bool := decide (Config.countMin ≤ x) && decide (x ≤ Config.countMax)

/-- R14: SET OFFSET. -/
def setOffset (ax : Axis) (offset : Int) (s : State) : State × Answer :=
  let u := s.axes.get ax
  let u' := { u with offset := offset }
  if !offsetInRange offset then (s, .refuse .badArgument)
  else match u.state with
    | .armed a => (s, ⟨.axisBusy, [finCode a.aligner]⟩)
    | .idle | .lost _ => (s.setAxis ax u', .ok (signedBytes u'.position))
    | .free | .aligned =>
      if !u.inWindow u'.position then (s, outOfRange 2)
      else (s.setAxis ax (u'.notify (.rebase u'.position .offset)), .ok (signedBytes u'.position))

/-- R17, R165: the 20 bytes of a READ AXES entry. R165 names bits 1 and 0 of the presence byte; its bits 7–2 are 0 here
(DESIGN CHOICE, log 23). -/
def AxisUnit.readEntry (u : AxisUnit) : List Byte :=
  [u.state.tag.code, u.state.tag.causeCode] ++ signedBytes u.position ++ signedBytes u.count ++ signedBytes u.offset ++
    signedBytes (u.lastIndex.getD 0) ++
    [byteOf ((if u.lastIndex.isSome then 1 else 0) + (if u.lineFault then 2 else 0)),
      optPortCode (match u.state with | .armed a => some a.aligner | _ => none)]

/-- R16, R17: READ AXES: the four axes latched at one instant, with the timebase. -/
def readAxes (s : State) : State × Answer :=
  (s, .ok ((List.finRange 4).flatMap (fun ax => (s.axes.get ax).readEntry) ++ le32 s.timebase))

/-- R19: SUBSCRIBE AXIS. -/
def subscribeAxis (p : Port) (ax : Axis) (s : State) : State × Answer :=
  let u := s.axes.get ax
  (s.setAxis ax { u with subscribers := u.subscribers.put p true },
    .ok ([u.state.tag.code, u.state.tag.causeCode] ++ signedBytes u.position))

/-- R19: UNSUBSCRIBE AXIS. -/
def unsubscribeAxis (p : Port) (ax : Axis) (s : State) : State × Answer :=
  let u := s.axes.get ax
  if u.subscribers.get p then (s.setAxis ax { u with subscribers := u.subscribers.put p false }, .ok [])
  else (s, .refuse .notSubscribed)

/-! ### The meanings -/

/-- CONFIGURE_AXIS (R8). -/
def execConfigureAxis (p : Port) (ax : Axis) (multiplier : Byte) (direction : Direction) (low high : Int)
    (pitch : BitVec 24) (tolerance : Fin 16) (s : State) : Result :=
  claim p (.configureAxis ax multiplier direction low high pitch tolerance)
    (configureAxis ax multiplier direction low high pitch tolerance) s

/-- START (R11). -/
def execStart (p : Port) (ax : Axis) (s : State) : Result := claim p (.start ax) (startAxis ax) s

/-- STOP (R12). -/
def execStop (p : Port) (ax : Axis) (s : State) : Result := claim p (.stop ax) (stopAxis ax) s

/-- RESUME (R13). -/
def execResume (p : Port) (ax : Axis) (s : State) : Result := claim p (.resume ax) (resumeAxis ax) s

/-- SET_OFFSET (R14). -/
def execSetOffset (p : Port) (ax : Axis) (offset : Int) (s : State) : Result :=
  claim p (.setOffset ax offset) (setOffset ax offset) s

/-- READ_AXES (R16, R17). -/
def execReadAxes (p : Port) (s : State) : Result := claim p .readAxes readAxes s

/-- SUBSCRIBE_AXIS (R19). -/
def execSubscribeAxis (p : Port) (ax : Axis) (s : State) : Result := claim p (.subscribeAxis ax) (subscribeAxis p ax) s

/-- UNSUBSCRIBE_AXIS (R19). -/
def execUnsubscribeAxis (p : Port) (ax : Axis) (s : State) : Result :=
  claim p (.unsubscribeAxis ax) (unsubscribeAxis p ax) s

/-- ENCODER_STEP (R1, R2). -/
def execEncoderStep (ax : Axis) (raw : StepDir) (s : State) : Result :=
  .next (s.axisStep ax ((s.axes.get ax).encoderStep ax s.timebase raw))

/-- SKIPPED_STATE (R3): both A and B change; the phase is tracked, nothing is counted. -/
def execSkippedState (ax : Axis) (s : State) : Result :=
  let u := s.axes.get ax
  .next (s.axisStep ax (AxisUnit.signalFault ax s.timebase { u with phase := u.phase.opposite }))

/-- LINE_FAULT_RISE (R3): the level becomes present; a level that is present already does not rise. -/
def execLineFaultRise (ax : Axis) (s : State) : Result :=
  let u := s.axes.get ax
  if u.lineFault then .next s
  else .next (s.axisStep ax (AxisUnit.signalFault ax s.timebase { u with lineFault := true }))

/-- LINE_FAULT_FALL (R3): a fall of the level changes no state of the axis. -/
def execLineFaultFall (ax : Axis) (s : State) : Result :=
  .next (s.setAxis ax { s.axes.get ax with lineFault := false })

end Sys2Proof.Machine
end

