-- ==== Sys2Proof/Machine/Align.lean ====
section
/-!
DEFINITION. Alignment and index supervision (02): ALIGN, CANCEL ALIGN, the index pulse in every axis state, and stage 4 of
a teardown at an axis unit.
-/

namespace Sys2Proof.Machine

/-! ### Requests -/

/-- R24: the two tests of a preset: inside the travel window, and loading a count strictly inside its bounds. -/
def AxisUnit.presetOk (u : AxisUnit) (preset : Int) : Bool := u.inWindow preset && countInside (preset - u.offset)

/-- R25, R165: the response of an accepted ALIGN: the state, the position, the record as stored, and whether a record was
replaced, coded 0 no, 1 yes (DEDUCED, log 22). -/
def alignAnswer (u : AxisUnit) (a : Alignment) (replaced : Bool) : Answer :=
  .ok ([AxisTag.armed.code] ++ signedBytes u.position ++ signedBytes a.preset ++
    [a.qualifier.code, a.direction.code, finCode a.aligner, boolCode replaced])

/-- R25–R29: ALIGN. -/
def alignAxis (p : Port) (ax : Axis) (preset : Int) (q : Qualifier) (d : DirReq) (s : State) : State × Answer :=
  let u := s.axes.get ax
  let a : Alignment := { aligner := p, preset := preset, qualifier := q, direction := d }
  let u' := { u with state := .armed a }
  match u.state with
  | .idle => (s, .refuse .axisState)
  | .armed b =>
    if b.aligner ≠ p then (s, ⟨.axisBusy, [finCode b.aligner]⟩)
    else if !u.presetOk preset then (s, outOfRange 1)
    else (s.setAxis ax u', alignAnswer u a true)
  | .free | .aligned =>
    if !u.presetOk preset then (s, outOfRange 1)
    else (s.axisStep ax (u', u'.stateEvents ax s.timebase .align), alignAnswer u a false)
  | .lost _ =>
    if !u.presetOk preset then (s, outOfRange 1)
    else if u.lineFault then (s, .refuse .lineFault)
    else if !u.inRange then (s, outOfRange 2)
    else (s.axisStep ax (u'.notify (.thaw u.position .resume), u'.stateEvents ax s.timebase .align),
      alignAnswer u a false)

/-- R36: CANCEL ALIGN. -/
def cancelAlign (p : Port) (ax : Axis) (s : State) : State × Answer :=
  let u := s.axes.get ax
  match u.state with
  | .armed a =>
    if a.aligner ≠ p then (s, .refuse .notAligner)
    else
      let u' := { u with state := .free }
      (s.axisStep ax (u', u'.stateEvents ax s.timebase .cancel), .ok (signedBytes u.position))
  | _ => (s, .refuse .axisState)

/-! ### The index pulse -/

/-- R30: the qualifier, against the trigger inputs' levels. -/
def qualifierMet (ts : Table 4 Trigger) : Qualifier → Bool
  | .none => true
  | .trigger t high => (ts.get t).level == high

/-- R31: the direction requirement, against the last step direction. -/
def directionMet (last : Option StepDir) : DirReq → Bool
  | .any => true
  | .positive => last == some .positive
  | .negative => last == some .negative

/-- R32: the count loaded so that the position equals the preset, at a qualified index pulse. -/
def AxisUnit.aligned (a : Alignment) (u : AxisUnit) : AxisUnit :=
  { u with state := .aligned, count := a.preset - u.offset, lastIndex := some (a.preset - u.offset) }

/-- R32: a qualified index pulse: the count is loaded, ALIGN_DONE goes to the aligner before AXIS_STATE to the
subscribers, and a rebase notice to the zone controller. -/
def AxisUnit.completeAlign (ax : Axis) (now : Word) (a : Alignment) (u : AxisUnit) :
    AxisUnit × List (Port × Event) :=
  let u' := u.aligned a
  (u'.notify (.rebase u'.position .align),
    (a.aligner, axisEvent .alignDone .align ax now .aligned u'.position) :: u'.stateEvents ax now .align)

/-- R39: whether an index pulse fits the pitch: within the tolerance of the last one, or of one pitch from it. A last
index count that is absent cannot arise in ALIGNED (R39); the pulse is then only recorded (log 13). -/
def AxisUnit.spacingOk (u : AxisUnit) : Bool :=
  match u.lastIndex with
  | none => true
  | some last =>
    let d : Nat := (u.count - last).natAbs
    decide (u.config.pitch = 0) || decide (d ≤ u.config.tolerance.val) ||
      decide (((d : Int) - (u.config.pitch.toNat : Int)).natAbs ≤ u.config.tolerance.val)

/-- R4, R32, R33, R39, R40: an index pulse, by the state of the axis. -/
def AxisUnit.indexPulse (ax : Axis) (now : Word) (ts : Table 4 Trigger) (u : AxisUnit) :
    AxisUnit × List (Port × Event) :=
  let recorded := { u with lastIndex := some u.count }
  match u.state with
  | .idle => (u, [])
  | .free | .lost _ => (recorded, [])
  | .armed a =>
    if qualifierMet ts a.qualifier && directionMet u.lastStep a.direction then u.completeAlign ax now a else (recorded, [])
  | .aligned => if u.spacingOk then (recorded, []) else u.enterLost ax now .spacing

/-! ### Teardown -/

/-- R37, R20: stage 4 at an axis unit: an alignment of the port ends in FREE with AXIS_STATE TEARDOWN; the port then
leaves the subscriber set. -/
def AxisUnit.tearDown (ax : Axis) (now : Word) (p : Port) (u : AxisUnit) : AxisUnit × List (Port × Event) :=
  let gone (v : AxisUnit) : AxisUnit := { v with subscribers := v.subscribers.put p false }
  match u.state with
  | .armed a =>
    if a.aligner = p then
      let u' := { u with state := .free }
      (gone u', u'.stateEvents ax now .teardown)
    else (gone u, [])
  | _ => (gone u, [])

/-! ### The meanings -/

/-- ALIGN (R25). -/
def execAlign (p : Port) (ax : Axis) (preset : Int) (q : Qualifier) (d : DirReq) (s : State) : Result :=
  claim p (.align ax preset q d) (alignAxis p ax preset q d) s

/-- CANCEL_ALIGN (R36). -/
def execCancelAlign (p : Port) (ax : Axis) (s : State) : Result := claim p (.cancelAlign ax) (cancelAlign p ax) s

/-- INDEX_PULSE (R4). -/
def execIndexPulse (ax : Axis) (s : State) : Result :=
  .next (s.axisStep ax ((s.axes.get ax).indexPulse ax s.timebase s.triggers))

end Sys2Proof.Machine
end

