-- ==== Sys2Proof/Machine/Capture.lean ====
section
/-!
DEFINITION. The capture unit (06): trigger configuration and latches, zone capture claims, the ring, the cursors, and stage
3 of a teardown.
-/

namespace Sys2Proof.Machine

/-! ### The ring -/

/-- R130: CAPTURE_READY for a port: its source and value are those of the record at the cursor's place. -/
def captureReady (r : CaptureRecord) (now : Word) : Event :=
  { kind := .captureReady, cause := none, source := some (.capture r.source), detail := none, generation := 0,
    value := r.sequence.toNat, timestamp := now }

/-- R127: a cursor at the place of the overwritten record moves forward by one, its skip count rising to at most
4,294,967,295; any other is not changed. -/
def Cursor.overtaken (gone : Word) (c : Cursor) : Cursor :=
  if c.next = gone then { next := c.next + 1, skip := if c.skip = BitVec.allOnes 32 then c.skip else c.skip + 1 } else c

/-- R123: the oldest record, when writing one more overwrites it. -/
def overwritten (ring : List CaptureRecord) : Option CaptureRecord :=
  if Config.ringMax ≤ ring.length then ring.head? else none

/-- R123, R127: a record written: it takes the next number; in a full ring it replaces the oldest, and the cursors at that
record's place move forward. -/
def CaptureUnit.write (mk : Word → CaptureRecord) (c : CaptureUnit) : CaptureUnit :=
  let r := mk (c.counter + 1)
  match overwritten c.ring with
  | none => { c with ring := c.ring ++ [r], counter := c.counter + 1 }
  | some gone =>
    { c with
      ring := c.ring.drop 1 ++ [r]
      counter := c.counter + 1
      cursors := c.cursors.mapIdx fun _ k => k.map (Cursor.overtaken gone.sequence) }

/-- R130: the ports whose cursor is ATTACHED with next equal to a sequence number, ascending. -/
def CaptureUnit.caughtUpAt (q : Word) (c : CaptureUnit) : List Port :=
  c.cursors.having fun k => match k with
    | some k => k.next = q
    | none => false

/-- R123, R127, R130: the capture unit writes a record; CAPTURE_READY goes to every port whose cursor waited for it. -/
def State.writeCapture (mk : Word → CaptureRecord) (s : State) : State :=
  let r := mk (s.capture.counter + 1)
  State.hand .captureUnit
    ((s.capture.caughtUpAt (s.capture.counter + 1)).map fun p => (p, captureReady r s.timebase))
    { s with capture := s.capture.write mk }

/-! ### Trigger inputs -/

/-- R117: the state summary of an axis. -/
def AxisState.summary : AxisState → Summary
  | .idle => .frozen
  | .free => .live
  | .armed _ => .live
  | .aligned => .aligned
  | .lost _ => .frozen

/-- R117: the axis entries of a snapshot, in ascending axis number. -/
def snapshotEntries (axes : Table 4 AxisUnit) (set : BitVec 4) : List AxisEntry :=
  ((List.finRange 4).filter fun ax => set.getLsbD ax.val).map fun ax =>
    { axis := ax, position := (axes.get ax).position, summary := (axes.get ax).state.summary }

/-- R114: whether a record selects an edge. -/
def selects : EdgeSel → InputEdge → Bool
  | .both, _ => true
  | .rise, .rise => true
  | .fall, .fall => true
  | _, _ => false

/-- R117, R118: an input at an edge: its level follows; a selected edge fills an EMPTY latch with a snapshot, and is
dropped, setting the dropped-edge flag, when the latch is FULL. -/
def Trigger.takeEdge (e : InputEdge) (now : Word) (axes : Table 4 AxisUnit) (t : Trigger) : Trigger :=
  let t' := { t with level := e == .rise }
  match t.config with
  | none => t'
  | some c =>
    if selects c.edge e then
      match t.latch with
      | none => { t' with latch := some { edge := e, timestamp := now, entries := snapshotEntries axes c.axes } }
      | some _ => { t' with dropped := true }
    else t'

def inputCaptureEdge : InputEdge → CaptureEdge
  | .rise => .rise
  | .fall => .fall

/-- R119: the capture record of a latched snapshot. PRECEDING_DROPPED stands in the record of the snapshot that waited when
the edge was dropped, as R118 and R119 give it; the worked sequence 6.7 gives it to the next one (DESIGN CHOICE, log 17). -/
def snapshotRecord (t : TrigIn) (dropped : Bool) (n : Snapshot) (q : Word) : CaptureRecord :=
  { sequence := q, timestamp := n.timestamp, source := .trigger t, edge := inputCaptureEdge n.edge, generation := none,
    precedingDropped := dropped, entries := n.entries }

def Crossing.captureEdge : Crossing → CaptureEdge
  | .enter => .enter
  | .exit => .exit
  | .pass => .pass

/-- R121: the capture record of a zone capture claim. -/
def claimRecord (c : CaptureClaim) (q : Word) : CaptureRecord :=
  { sequence := q, timestamp := c.time, source := .zone c.zone, edge := c.event.captureEdge,
    generation := some c.generation, precedingDropped := false,
    entries := [{ axis := c.axis, position := c.position, summary := if c.aligned then .aligned else .live }] }

/-! ### Requests -/

/-- R115, R165: the response of CONFIGURE TRIGGER: the record as stored. -/
def triggerAnswer (c : Option TriggerConfig) : Answer :=
  .ok [edgeCode (c.map TriggerConfig.edge), axisSetCode ((c.map TriggerConfig.axes).getD 0),
    optPortCode (c.map TriggerConfig.author)]

/-- R115: CONFIGURE TRIGGER. -/
def configureTrigger (p : Port) (t : TrigIn) (edge : Option EdgeSel) (axes : BitVec 4) (s : State) : State × Answer :=
  let u := s.triggers.get t
  let set (c : Option TriggerConfig) : State × Answer := (s.setTrigger t { u with config := c }, triggerAnswer c)
  let judged : State × Answer := match edge with
    | none => set none
    | some e => if axes = 0 then (s, .refuse .badArgument) else set (some { edge := e, axes := axes, author := p })
  match u.config with
  | some c => if c.author ≠ p then (s, ⟨.triggerInUse, [finCode c.author]⟩) else judged
  | none => judged

/-- R126: the response of ATTACH CURSOR: next, oldest, counter, and whether oldest is present, coded 0 no, 1 yes (DEDUCED,
log 22). The value of the field
"oldest" when it is absent is a free value (log 11). -/
def attachAnswer (free : Nat) (next : Word) (ring : List CaptureRecord) (counter : Word) : Answer :=
  match ring with
  | [] => .ok (le32 next ++ le32 (Config.absentOldest free) ++ le32 counter ++ [0])
  | r :: _ => .ok (le32 next ++ le32 r.sequence ++ le32 counter ++ [1])

/-- R126: where ATTACH CURSOR places the cursor. -/
def attachPlace (mode : CursorMode) (c : CaptureUnit) : Word :=
  match mode, c.ring with
  | .oldest, r :: _ => r.sequence
  | _, _ => c.counter + 1

/-- R126, R130: the CAPTURE_READY that ATTACH CURSOR sends. -/
def attachEvents (p : Port) (mode : CursorMode) (now : Word) (ring : List CaptureRecord) : List (Port × Event) :=
  match mode, ring with
  | .oldest, r :: _ => [(p, captureReady r now)]
  | _, _ => []

/-- The counter of free values after an ATTACH CURSOR: one has been taken when the ring is empty (log 11). -/
def State.spendFree (ring : List CaptureRecord) (s : State) : State :=
  { s with freeCount := if ring.isEmpty then s.freeCount + 1 else s.freeCount }

/-- R126: ATTACH CURSOR. -/
def attachCursor (p : Port) (mode : CursorMode) (s : State) : State × Answer :=
  let next := attachPlace mode s.capture
  (((s.setCursor p (some { next := next, skip := 0 })).spendFree s.capture.ring).hand .captureUnit
      (attachEvents p mode s.timebase s.capture.ring),
    attachAnswer s.freeCount next s.capture.ring s.capture.counter)

/-- R128: DETACH CURSOR. -/
def detachCursor (p : Port) (s : State) : State × Answer :=
  match s.capture.cursors.get p with
  | none => (s, .refuse .noCursor)
  | some _ => (s.setCursor p none, .ok [])

/-- R125: how many records a cursor has to read: the counter minus next plus one. -/
def toRead (counter next : Word) : Nat := (counter - next + 1).toNat

/-- R129: the records a read returns: from next onward, ascending, at most m. -/
def readRecords (m : Nat) (c : Cursor) (u : CaptureUnit) : List CaptureRecord :=
  (u.ring.drop (u.ring.length - toRead u.counter c.next)).take m

/-- R129: the cursor's next sequence number after a read. -/
def nextAfter (c : Cursor) (rs : List CaptureRecord) : Word :=
  match rs.getLast? with
  | none => c.next
  | some r => r.sequence + 1

/-- R129: READ CAPTURES. -/
def readCaptures (p : Port) (m : Byte) (s : State) : State × Answer :=
  if m.toNat = 0 ∨ Config.readCapturesMax < m.toNat then (s, .refuse .badArgument)
  else match s.capture.cursors.get p with
    | none => (s, .refuse .noCursor)
    | some c =>
      let rs := readRecords m.toNat c s.capture
      let next := nextAfter c rs
      (s.setCursor p (some { next := next, skip := 0 }),
        .ok (le32 c.skip ++ le32 next ++ [byteOf (toRead s.capture.counter next), byteOf rs.length] ++
          rs.flatMap CaptureRecord.bytes))

/-! ### Teardown -/

/-- R132: a trigger after stage 3: OFF if the port authored it; its latch and dropped-edge flag are kept. -/
def Trigger.tearDown (p : Port) (t : Trigger) : Trigger :=
  match t.config with
  | some c => if c.author = p then { t with config := none } else t
  | none => t

/-- R132: stage 3 of a port's teardown at the capture unit. -/
def captureTearDown (p : Port) (s : State) : State :=
  State.setCursor p none { s with triggers := s.triggers.mapIdx fun _ t => t.tearDown p }

/-! ### The meanings -/

/-- TRIGGER_EDGE (R117): a change of the input's level. An input already at the level does not change (log 1); while
RSTN is asserted no edge is latched (R169), which the OFF records of part reset give. -/
def execTriggerEdge (t : TrigIn) (edge : InputEdge) (s : State) : Result :=
  let u := s.triggers.get t
  if u.level = (edge == .rise) then .next s
  else .next (s.setTrigger t (u.takeEdge edge s.timebase s.axes))

/-- LATCH_SNAPSHOT_WRITE (R119): the capture unit takes the snapshot of a FULL latch, its record carrying the dropped-edge
flag as it stands (DESIGN CHOICE against 6.7, log 17); an EMPTY latch presents none (log 1). -/
def execLatchSnapshotWrite (t : TrigIn) (s : State) : Result :=
  let u := s.triggers.get t
  match u.latch with
  | none => .next s
  | some n =>
    .next ((s.setTrigger t { u with latch := none, dropped := false }).writeCapture (snapshotRecord t u.dropped n))

/-- ZONE_CAPTURE_CLAIM (R121): the capture unit takes the oldest claim it holds. -/
def execZoneCaptureClaim (s : State) : Result :=
  match s.capture.waiting with
  | [] => .next s
  | c :: rest => .next (State.writeCapture (claimRecord c) { s with capture := { s.capture with waiting := rest } })

/-- CONFIGURE_TRIGGER (R115). -/
def execConfigureTrigger (p : Port) (t : TrigIn) (edge : Option EdgeSel) (axes : BitVec 4) (s : State) : Result :=
  claim p (.configureTrigger t edge axes) (configureTrigger p t edge axes) s

/-- ATTACH_CURSOR (R126). -/
def execAttachCursor (p : Port) (mode : CursorMode) (s : State) : Result :=
  claim p (.attachCursor mode) (attachCursor p mode) s

/-- DETACH_CURSOR (R128). -/
def execDetachCursor (p : Port) (s : State) : Result := claim p .detachCursor (detachCursor p) s

/-- READ_CAPTURES (R129). -/
def execReadCaptures (p : Port) (m : Byte) (s : State) : Result := claim p (.readCaptures m) (readCaptures p m) s

end Sys2Proof.Machine
end

