-- ==== Sys2Proof/Machine/Events.lean ====
section
/-!
DEFINITION. The event queues (05): appending with the OVERFLOW marker, FETCH EVENTS, ACK EVENTS, SET ATTENTION, and what
OPEN and stage 1 of a teardown do to a queue.
-/

namespace Sys2Proof.Machine

/-! ### Appending -/

/-- A list with its last entry changed. -/
def mapLast {α : Type} (f : α → α) : List α → List α
  | [] => []
  | [x] => [f x]
  | x :: y :: rest => x :: mapLast f (y :: rest)

/-- R100: the record at the tail is an OVERFLOW marker. -/
def lastIsMarker (l : List EventRecord) : Bool :=
  match l.getLast? with
  | some r => r.event.kind == .overflow
  | none => false

/-- R102: a marker is SEALED from the instant a record is appended after it; other records are not altered (R96). -/
def EventRecord.sealMarker (r : EventRecord) : EventRecord :=
  if r.event.kind = .overflow then { r with event := { r.event with detail := some (.marker true) } } else r

/-- R100: the dropped count of a marker rises by one, up to 65,535. -/
def EventRecord.countDrop (r : EventRecord) : EventRecord :=
  { r with event := { r.event with value := if r.event.value = 65535 then 65535 else r.event.value + 1 } }

/-- R102: a fresh OVERFLOW marker: dropped count 1, OPEN. -/
def markerEvent (now : Word) : Event :=
  { kind := .overflow, cause := none, source := none, detail := some (.marker false), generation := 0, value := 1,
    timestamp := now }

/-- R101: a record joins the tail with the next sequence number. -/
def EventQueue.push (e : Event) (q : EventQueue) : EventQueue :=
  { q with records := q.records ++ [{ sequence := q.next, event := e }], next := q.next + 1 }

/-- R99, R100: a record that reaches the queue is discarded when it is CLOSED; else it is appended, dropped and counted in
the marker at the tail, or replaced by a fresh marker. -/
def EventQueue.append (now : Word) (e : Event) (q : EventQueue) : EventQueue :=
  if !q.isOpen then q
  else if q.records.length < Config.queueOrdinary then
    EventQueue.driveAttn (EventQueue.push e { q with records := mapLast EventRecord.sealMarker q.records })
  else if lastIsMarker q.records then
    EventQueue.driveAttn { q with records := mapLast EventRecord.countDrop q.records }
  else EventQueue.driveAttn (q.push (markerEvent now))

/-! ### The queue and the session -/

/-- R99, R108: the queue opened by OPEN: OPEN, next number 1, attention ENABLED. Records handed over before the OPEN and
not yet taken were produced before it, and are discarded (log 9). -/
def EventQueue.opened (q : EventQueue) : EventQueue :=
  EventQueue.driveAttn { q with isOpen := true, next := 1, attention := true, arriving := [] }

/-- R109: the queue closed by stage 1 of a teardown: every record removed; the next number and the attention enable are
left as they are. -/
def EventQueue.closed (q : EventQueue) : EventQueue :=
  EventQueue.driveAttn { q with records := [], isOpen := false }

/-! ### Requests -/

/-- R104: FETCH EVENTS. -/
def fetchEvents (p : Port) (n : Byte) (s : State) : State × Answer :=
  let held := (s.queues.get p).records
  if n.toNat = 0 ∨ Config.fetchMax < n.toNat then (s, .refuse .badArgument)
  else
    let shown := held.take n.toNat
    (s, .ok ([byteOf held.length, byteOf shown.length] ++ shown.flatMap EventRecord.bytes))

/-- R105: how many records ACK EVENTS removes: through the record numbered `sequence`, if it is held. -/
def ackCount (sequence : BitVec 16) (held : List EventRecord) : Option Nat :=
  match held with
  | [] => none
  | h :: _ =>
    let d := (sequence - h.sequence).toNat
    if d < held.length then some (d + 1) else none

/-- R105, R166: BAD_SEQUENCE carries the number held, whether a head is present, coded 0 no, 1 yes (DEDUCED, log 22), and
the head's sequence number, 0 when absent. -/
def badSequence (held : List EventRecord) : Answer :=
  ⟨.badSequence, byteOf held.length :: (match held with
    | [] => [0, 0, 0]
    | h :: _ => 1 :: le16 h.sequence)⟩

/-- R105: ACK EVENTS. -/
def ackEvents (p : Port) (sequence : BitVec 16) (s : State) : State × Answer :=
  let q := s.queues.get p
  match ackCount sequence q.records with
  | none => (s, badSequence q.records)
  | some k =>
    let rest := q.records.drop k
    (s.setQueue p (EventQueue.driveAttn { q with records := rest }), .ok [byteOf k, byteOf rest.length])

/-- R111: SET ATTENTION. -/
def setAttention (p : Port) (enabled : Bool) (s : State) : State × Answer :=
  let q := s.queues.get p
  (s.setQueue p (EventQueue.driveAttn { q with attention := enabled }),
    .ok [boolCode enabled, byteOf q.records.length])

/-! ### The meanings -/

/-- EVENT_APPEND (R100): the queue takes the oldest record that this producer handed to it and it has not taken; without
one there is nothing to take (log 1). -/
def execEventAppend (p : Port) (producer : Producer) (s : State) : Result :=
  let q := s.queues.get p
  match pick (fun a => a.1 = producer) q.arriving with
  | none => .next s
  | some (a, rest) => .next (s.setQueue p (EventQueue.append s.timebase a.2 { q with arriving := rest }))

/-- FETCH_EVENTS (R104). -/
def execFetchEvents (p : Port) (n : Byte) (s : State) : Result := claim p (.fetchEvents n) (fetchEvents p n) s

/-- ACK_EVENTS (R105). -/
def execAckEvents (p : Port) (sequence : BitVec 16) (s : State) : Result :=
  claim p (.ackEvents sequence) (ackEvents p sequence) s

/-- SET_ATTENTION (R111). -/
def execSetAttention (p : Port) (enabled : Bool) (s : State) : Result :=
  claim p (.setAttention enabled) (setAttention p enabled) s

end Sys2Proof.Machine
end

