-- ==== Sys2Proof/Machine/Frames.lean ====
section
/-!
DEFINITION. Frames (R147, R162, R163): the check byte, the layout of request and response frames, the table of request
codes and payloads (R165) with the reader of each (R167), and the request payloads a master writes.
-/

namespace Sys2Proof.Machine

/-- R163: one shift of the check register. -/
def crcShift (r : Byte) : Byte := if r.msb then (r <<< 1) ^^^ 0x2F else r <<< 1

/-- R163: one byte taken into the check register. -/
def crcByte (r b : Byte) : Byte :=
  crcShift (crcShift (crcShift (crcShift (crcShift (crcShift (crcShift (crcShift (r ^^^ b))))))))

/-- R163: the check byte over a list of bytes. -/
def crc8 (l : List Byte) : Byte := l.foldl crcByte 0xFF

/-- R162: a request frame: length, request code, session number, tag, payload, check byte. -/
def requestFrame (code session tag : Byte) (payload : List Byte) : List Byte :=
  let body := [byteOf (payload.length + 5), code, session, tag] ++ payload
  body ++ [crc8 body]

/-- R162: a response frame: length, echoed code and tag, result code, notes, payload, check byte. -/
def Response.bytes (r : Response) : List Byte :=
  let body := [byteOf (r.payload.length + 6), r.code, r.tag, r.result.code, boolCode r.note] ++ r.payload
  body ++ [crc8 body]

/-- R147: what is wrong with a taken frame, if anything: its length, then its check byte. -/
def frameVerdict (f : List Byte) : Option ResultCode :=
  if f.length < 5 ∨ (byteAt f 0).toNat < 5 ∨ 64 < (byteAt f 0).toNat ∨ f.length ≠ (byteAt f 0).toNat then
    some .frameError
  else if byteAt f (f.length - 1) ≠ crc8 f.dropLast then some .checkError
  else none

/-- R165: what a request code asks for: one of the three requests the port unit executes itself, or one to dispatch. -/
inductive Asked
  | identify
  | openSession
  | closeSession
  | dispatched (r : Request)
deriving DecidableEq, Repr

/-- R165: a row of the table of request codes: the code, the test of the payload's length, and the reader of its fields
in payload order. -/
structure RequestRow where
  code : Byte
  lengthOk : List Byte → Bool
  read : List Byte → Except Byte Asked

/-- A payload of one length. -/
def exactly (n : Nat) (l : List Byte) : Bool := l.length == n

/-- R165, the codes of the axis unit and the snapshot latch. -/
def axisRows : List RequestRow :=
  [ ⟨0x10, exactly 15, fun l => do
      let ax ← field (finOfCode 4) l 0
      let d ← field Direction.ofCode l 2
      let tol ← field (finOfCode 16) l 14
      return .dispatched (.configureAxis ax (byteAt l 1) d (readSigned l 3) (readSigned l 7) (read24 l 11) tol)⟩,
    ⟨0x11, exactly 1, fun l => do return .dispatched (.start (← field (finOfCode 4) l 0))⟩,
    ⟨0x12, exactly 1, fun l => do return .dispatched (.stop (← field (finOfCode 4) l 0))⟩,
    ⟨0x13, exactly 1, fun l => do return .dispatched (.resume (← field (finOfCode 4) l 0))⟩,
    ⟨0x14, exactly 5, fun l => do return .dispatched (.setOffset (← field (finOfCode 4) l 0) (readSigned l 1))⟩,
    ⟨0x15, exactly 0, fun _ => .ok (.dispatched .readAxes)⟩,
    ⟨0x16, exactly 1, fun l => do return .dispatched (.subscribeAxis (← field (finOfCode 4) l 0))⟩,
    ⟨0x17, exactly 1, fun l => do return .dispatched (.unsubscribeAxis (← field (finOfCode 4) l 0))⟩,
    ⟨0x18, exactly 7, fun l => do
      let ax ← field (finOfCode 4) l 0
      let q ← field Qualifier.ofCode l 5
      let d ← field DirReq.ofCode l 6
      return .dispatched (.align ax (readSigned l 1) q d)⟩,
    ⟨0x19, exactly 1, fun l => do return .dispatched (.cancelAlign (← field (finOfCode 4) l 0))⟩ ]

/-- R165, the codes of the zone table. -/
def zoneRows : List RequestRow :=
  [ ⟨0x20, exactly 13, fun l => do
      let ax ← field (finOfCode 4) l 0
      let c ← field CaptureFlags.ofCode l 11
      let f ← field choiceOfCode l 12
      return .dispatched (.defineZone ax (readSigned l 1) (readSigned l 5) (read16 l 9) c f)⟩,
    ⟨0x21, exactly 14, fun l => do
      let z ← field (finOfCode 32) l 0
      let c ← field CaptureFlags.ofCode l 13
      return .dispatched (.modifyZone z (read16 l 1) (readSigned l 3) (readSigned l 7) (read16 l 11) c)⟩,
    ⟨0x22, exactly 3, fun l => do return .dispatched (.deleteZone (← field (finOfCode 32) l 0) (read16 l 1))⟩,
    ⟨0x23, exactly 1, fun l => do return .dispatched (.readZone (← field (finOfCode 32) l 0))⟩,
    ⟨0x24, exactly 1, fun l => do return .dispatched (.listZones (← field (finOfCode 32) l 0))⟩,
    ⟨0x25, exactly 4, fun l => do
      let z ← field (finOfCode 32) l 0
      let f ← field Filter.ofCode l 3
      return .dispatched (.subscribeZone z (read16 l 1) f)⟩,
    ⟨0x26, exactly 1, fun l => do return .dispatched (.unsubscribeZone (← field (finOfCode 32) l 0))⟩ ]

/-- R165, the codes of the output lines. -/
def outputRows : List RequestRow :=
  [ ⟨0x30, exactly 4, fun l => do
      let o ← field (finOfCode 8) l 0
      let w ← field boolOfCode l 3
      return .dispatched (.claimOutput o (read16 l 1) w)⟩,
    ⟨0x31, exactly 3, fun l => do return .dispatched (.renewLease (← field (finOfCode 8) l 0) (read16 l 1))⟩,
    ⟨0x32, exactly 1, fun l => do return .dispatched (.releaseOutput (← field (finOfCode 8) l 0))⟩,
    ⟨0x33, exactly 1, fun l => do return .dispatched (.cancelWait (← field (finOfCode 8) l 0))⟩,
    ⟨0x34, exactly 5, fun l => do return .dispatched (.mapOutput (← field (finOfCode 8) l 0) (read32 l 1))⟩,
    ⟨0x35, exactly 2, fun l => do
      let o ← field (finOfCode 8) l 0
      let f ← field Force.ofCode l 1
      return .dispatched (.forceOutput o f)⟩,
    ⟨0x36, exactly 3, fun l => do
      let o ← field (finOfCode 8) l 0
      let pol ← field LossPolicy.ofCode l 1
      let h ← field boolOfCode l 2
      return .dispatched (.configureOutput o pol h)⟩,
    ⟨0x37, exactly 0, fun _ => .ok (.dispatched .readOutputs)⟩ ]

/-- R165, R167: a POST MESSAGE payload is 3 bytes and as many more as its length field says. -/
def postLengthOk (l : List Byte) : Bool := decide (3 ≤ l.length) && l.length == 3 + (byteAt l 2).toNat

/-- R165, the codes of the event queue, the capture unit and the message relay. -/
def serviceRows : List RequestRow :=
  [ ⟨0x40, exactly 1, fun l => .ok (.dispatched (.fetchEvents (byteAt l 0)))⟩,
    ⟨0x41, exactly 2, fun l => .ok (.dispatched (.ackEvents (read16 l 0)))⟩,
    ⟨0x42, exactly 1, fun l => do return .dispatched (.setAttention (← field boolOfCode l 0))⟩,
    ⟨0x50, exactly 3, fun l => do
      let t ← field (finOfCode 4) l 0
      let e ← field edgeOfCode l 1
      let s ← field axisSetOfCode l 2
      return .dispatched (.configureTrigger t e s)⟩,
    ⟨0x51, exactly 1, fun l => do return .dispatched (.attachCursor (← field CursorMode.ofCode l 0))⟩,
    ⟨0x52, exactly 0, fun _ => .ok (.dispatched .detachCursor)⟩,
    ⟨0x53, exactly 1, fun l => .ok (.dispatched (.readCaptures (byteAt l 0)))⟩,
    ⟨0x60, postLengthOk, fun l => do
      let r ← field (finOfCode 4) l 0
      let n ← field boolOfCode l 1
      return .dispatched (.postMessage r n (l.drop 3))⟩,
    ⟨0x61, exactly 0, fun _ => .ok (.dispatched .takeMessage)⟩,
    ⟨0x62, exactly 1, fun l => .ok (.dispatched (.withdrawMessage (byteAt l 0)))⟩ ]

/-- R165: the whole table of request codes. -/
def requestRows : List RequestRow :=
  [ ⟨0x01, exactly 0, fun _ => .ok .identify⟩, ⟨0x02, exactly 0, fun _ => .ok .openSession⟩,
    ⟨0x03, exactly 0, fun _ => .ok .closeSession⟩ ] ++ axisRows ++ zoneRows ++ outputRows ++ serviceRows

/-- R165: the row of a request code; none when the code is unknown. -/
def requestRow (code : Byte) : Option RequestRow := requestRows.find? fun r => r.code == code

/-- R167: the payload of a known request, or the offset of the first wrong field, 0xFF when the length is wrong. -/
def RequestRow.parse (r : RequestRow) (payload : List Byte) : Except Byte Asked :=
  if r.lengthOk payload then r.read payload else .error 0xFF

end Sys2Proof.Machine

namespace Sys2Proof

open Machine

/-- R165: the request code of a dispatched request. -/
def Request.code : Request → Byte
  | .configureAxis .. => 0x10
  | .start _ => 0x11
  | .stop _ => 0x12
  | .resume _ => 0x13
  | .setOffset .. => 0x14
  | .readAxes => 0x15
  | .subscribeAxis _ => 0x16
  | .unsubscribeAxis _ => 0x17
  | .align .. => 0x18
  | .cancelAlign _ => 0x19
  | .defineZone .. => 0x20
  | .modifyZone .. => 0x21
  | .deleteZone .. => 0x22
  | .readZone _ => 0x23
  | .listZones _ => 0x24
  | .subscribeZone .. => 0x25
  | .unsubscribeZone _ => 0x26
  | .claimOutput .. => 0x30
  | .renewLease .. => 0x31
  | .releaseOutput _ => 0x32
  | .cancelWait _ => 0x33
  | .mapOutput .. => 0x34
  | .forceOutput .. => 0x35
  | .configureOutput .. => 0x36
  | .readOutputs => 0x37
  | .fetchEvents _ => 0x40
  | .ackEvents _ => 0x41
  | .setAttention _ => 0x42
  | .configureTrigger .. => 0x50
  | .attachCursor _ => 0x51
  | .detachCursor => 0x52
  | .readCaptures _ => 0x53
  | .postMessage .. => 0x60
  | .takeMessage => 0x61
  | .withdrawMessage _ => 0x62

/-- R165: the payload a master writes for a dispatched request, in field order. -/
def Request.payload : Request → List Byte
  | .configureAxis ax m d low high pitch tol =>
    [finCode ax, m, d.code] ++ signedBytes low ++ signedBytes high ++ le24 pitch ++ [finCode tol]
  | .start ax | .stop ax | .resume ax | .subscribeAxis ax | .unsubscribeAxis ax | .cancelAlign ax => [finCode ax]
  | .setOffset ax off => finCode ax :: signedBytes off
  | .readAxes | .readOutputs | .detachCursor | .takeMessage => []
  | .align ax preset q d => finCode ax :: signedBytes preset ++ [q.code, d.code]
  | .defineZone ax lower upper guard c f =>
    finCode ax :: signedBytes lower ++ signedBytes upper ++ le16 guard ++ [c.code, choiceCode f]
  | .modifyZone z g lower upper guard c =>
    finCode z :: le16 g ++ signedBytes lower ++ signedBytes upper ++ le16 guard ++ [c.code]
  | .deleteZone z g => finCode z :: le16 g
  | .readZone z | .listZones z | .unsubscribeZone z => [finCode z]
  | .subscribeZone z g f => finCode z :: le16 g ++ [f.code]
  | .claimOutput o d w => finCode o :: le16 d ++ [boolCode w]
  | .renewLease o d => finCode o :: le16 d
  | .releaseOutput o | .cancelWait o => [finCode o]
  | .mapOutput o zs => finCode o :: le32 zs
  | .forceOutput o f => [finCode o, f.code]
  | .configureOutput o pol h => [finCode o, pol.code, boolCode h]
  | .fetchEvents n => [n]
  | .ackEvents q => le16 q
  | .setAttention b => [boolCode b]
  | .configureTrigger t e s => [finCode t, edgeCode e, axisSetCode s]
  | .attachCursor m => [m.code]
  | .readCaptures m => [m]
  | .postMessage r n payload => [finCode r, boolCode n, byteOf payload.length] ++ payload
  | .withdrawMessage id => [id]

end Sys2Proof
end

