-- ==== Sys2Proof/Machine/Ports.lean ====
section
/-!
DEFINITION. Port units (08): transactions on the link, the request slot, frame checking, the judgement of a request's
code, session and payload, IDENTIFY, OPEN, CLOSE and stage 1 of a teardown, and PRSTn.
-/

namespace Sys2Proof.Machine

/-! ### The link -/

/-- R143, R169: every transaction on a link is ignored while PRSTn is held asserted or the part is held in reset. -/
def State.linkIgnored (p : Port) (s : State) : Bool := s.inReset || (s.ports.get p).prstn

/-- R160: the bytes the port clocked out in a transaction. -/
def State.clockOut (p : Port) (bytes : List Byte) (s : State) : State :=
  s.setPort p { s.ports.get p with miso := bytes }

/-- R160, R161: `n` bytes of fill, or of the 0x00 that a PUT, an ignored or a void transaction clocks out. -/
def zeros (n : Nat) : List Byte := List.replicate n 0

/-- R145: FRAME_DISCARDED set. -/
def State.flagDiscard (p : Port) (s : State) : State :=
  s.setPort p { s.ports.get p with frameDiscarded := true }

/-! ### Teardown, stage 1 -/

/-- R150, R157: the attention enable after the event queue has taken the SET ATTENTION requests sent to it before stage 1
(log 10). -/
def attentionAfter (ds : List Dispatch) (b : Bool) : Bool :=
  ds.foldl (fun b d => match d.request with
    | .setAttention e => e
    | _ => b) b

/-- R109, R150, R157: stage 1 of a teardown: the session goes to CLOSING and the event queue is emptied and closed, after
it has taken the requests sent to it before (their answers are discarded, log 10). -/
def startTeardown (p : Port) (s : State) : State :=
  let u := s.ports.get p
  let q := s.queues.get p
  (s.setPort p
      { u with session := .closing .two, inFlight := u.inFlight.filter fun d => d.request.owner ≠ .eventQueue }).setQueue p
    (EventQueue.closed { q with attention := attentionAfter u.inFlight q.attention })

/-! ### Judging a frame -/

/-- R146, R148, R162: a response formed by the port unit and made ANSWER_READY at once. -/
def State.respond (p : Port) (code tag : Byte) (note : Bool) (a : Answer) (s : State) : State :=
  s.setPort p { s.ports.get p with slot := .answerReady ⟨code, tag, a.result, note, a.payload⟩ }

/-- R148, R152–R154: the refusal of a request by the session, if any. IDENTIFY is admitted in every state and OPEN in
CLOSED, whatever session number the frame carries. -/
def sessionVerdict (u : PortUnit) (code number : Byte) : Option ResultCode :=
  if code = 0x01 then none
  else if code = 0x02 then
    match u.session with
    | .closed => none
    | .opened => some .sessionOpen
    | .closing _ => some .sessionClosing
  else
    match u.session with
    | .closed => some .noSession
    | .closing _ => some (if code = 0x03 then .sessionClosing else .noSession)
    | .opened => if number ≠ u.number then some .staleSession else none

/-- R152, R165: the response payload of IDENTIFY. Its session state byte holds the code that R161 gives the session state
in the status byte: R164 and R165 give the byte no code of its own (DEDUCED, log 19). -/
def identifyBytes (p : Port) (u : PortUnit) (now : Word) : List Byte :=
  le16 Config.vendorCode ++ le16 Config.partCode ++ [Config.revision, finCode p, byteOf u.session.code, u.number] ++
    Config.capacities ++ le32 now

/-- R153: the session number after this one: 255 is followed by 1. -/
def nextNumber (n : Byte) : Byte := if n = 255 then 1 else n + 1

/-- R153: OPEN accepted: the next session number, the session OPEN and the event queue opened in the same claim. -/
def State.openedSession (p : Port) (s : State) : State :=
  (s.setPort p { s.ports.get p with session := .opened, number := nextNumber (s.ports.get p).number }).setQueue p
    (s.queues.get p).opened

/-- R146, R148: a request dispatched: the slot goes to WORKING, the request is on its way to its owner. -/
def State.dispatch (p : Port) (code tag : Byte) (note : Bool) (r : Request) (s : State) : State :=
  let u := s.ports.get p
  s.setPort p { u with slot := .working code tag note, inFlight := u.inFlight ++ [{ request := r, awaited := true }] }

/-- R155: CLOSE accepted: close-pending set, the slot WORKING, teardown begun. -/
def State.closeAccepted (p : Port) (code tag : Byte) (note : Bool) (s : State) : State :=
  startTeardown p (s.setPort p { s.ports.get p with slot := .working code tag note, closePending := true })

/-- R148: a request that the code, the session and the payload tests have passed. -/
def State.carryOut (p : Port) (code tag : Byte) (note : Bool) (asked : Asked) (s : State) : State :=
  match asked with
  | .identify => s.respond p code tag note (.ok (identifyBytes p (s.ports.get p) s.timebase))
  | .openSession =>
    (s.openedSession p).respond p code tag note (.ok (nextNumber (s.ports.get p).number :: le32 s.timebase))
  | .closeSession => s.closeAccepted p code tag note
  | .dispatched r => s.dispatch p code tag note r

/-- R148, R167: a frame that passed R147 is judged for its code, its session and its payload, in that order. -/
def judgeFrame (p : Port) (code number tag : Byte) (payload : List Byte) (note : Bool) (s : State) : State :=
  match requestRow code with
  | none => s.respond p code tag note (.refuse .unknownRequest)
  | some row =>
    match sessionVerdict (s.ports.get p) code number with
    | some r => s.respond p code tag note (.refuse r)
    | none =>
      match row.parse payload with
      | .error off => s.respond p code tag note ⟨.badPayload, [off]⟩
      | .ok asked => s.carryOut p code tag note asked

/-- R147: a taken frame is checked, then judged. The response of a failed check echoes the code and tag bytes as received,
0 where too few arrived. -/
def takeFrame (p : Port) (f : List Byte) (note : Bool) (s : State) : State :=
  match frameVerdict f with
  | some r => s.respond p (byteAt f 1) (byteAt f 3) note (.refuse r)
  | none => judgeFrame p (byteAt f 1) (byteAt f 2) (byteAt f 3) ((f.drop 4).dropLast) note s

/-- R146: a PUT at the end of its frame: discarded and flagged in the start-up period and in WORKING, else taken; the
response that displaces an uncollected one carries the note. `n` is the number of frame bytes. -/
def putTransaction (p : Port) (n : Nat) (take : Bool → State → State) (s : State) : State :=
  let s' := s.clockOut p (zeros (n + 1))
  if s.linkIgnored p then s'
  else if s.starting then s'.flagDiscard p
  else match (s.ports.get p).slot with
    | .working .. => s'.flagDiscard p
    | .ready => take false s'
    | .answerReady _ => take true s'

/-! ### GET and PEEK -/

/-- R149: the response a GET clocks out after the status byte. -/
def ReqSlot.heldBytes : ReqSlot → List Byte
  | .answerReady r => r.bytes
  | _ => []

/-- R149: the slot after a GET of `n` bytes: READY when every byte of the response was clocked out. -/
def ReqSlot.afterGet (n : Nat) : ReqSlot → ReqSlot
  | .answerReady r => if 1 + r.bytes.length ≤ n then .ready else .answerReady r
  | sl => sl

/-- R144, R145, R149, R161: a GET or a PEEK (`held` empty) of `n` bytes after the type byte: status byte, held bytes, fill;
FRAME_DISCARDED is cleared at the end of the status byte that reports it. -/
def readTransaction (p : Port) (n : Nat) (held : List Byte) (slot : ReqSlot) (s : State) : State :=
  let u := s.ports.get p
  if s.linkIgnored p then s.clockOut p (zeros (n + 1))
  else
    s.setPort p
      { u with
        slot := slot
        frameDiscarded := if n = 0 then u.frameDiscarded else false
        miso := 0 :: (statusByte s.starting u (s.queues.get p) :: held ++ zeros n).take n }

/-! ### The meanings -/

/-- PUT (R146). -/
def execPut (p : Port) (frame : List Byte) (s : State) : Result :=
  .next (putTransaction p frame.length (takeFrame p frame) s)

/-- GET (R149). -/
def execGet (p : Port) (clocked : Nat) (s : State) : Result :=
  let sl := (s.ports.get p).slot
  .next (readTransaction p clocked sl.heldBytes (sl.afterGet clocked) s)

/-- PEEK (R144). -/
def execPeek (p : Port) (clocked : Nat) (s : State) : Result :=
  .next (readTransaction p clocked [] (s.ports.get p).slot s)

/-- VOID_TRANSACTION (R143): the port clocks out 0x00 and FRAME_DISCARDED is set. A period without a whole byte is no
transaction, and one whose first byte is a type code is not void: neither is a step of this kind (log 1). -/
def execVoidTransaction (p : Port) (bytes : List Byte) (s : State) : Result :=
  match bytes with
  | [] => .next s
  | b :: rest =>
    if isTypeCode b then .next s
    else
      let s' := s.clockOut p (zeros (rest.length + 1))
      .next (if s.linkIgnored p then s' else s'.flagDiscard p)

/-- IDENTIFY (R152): the port unit takes an IDENTIFY frame and executes it in the same claim (R148, log 4). -/
def execIdentify (p : Port) (session tag : Byte) (s : State) : Result :=
  .next (putTransaction p 5 (judgeFrame p 0x01 session tag []) s)

/-- OPEN (R153): the port unit takes an OPEN frame and executes it in the same claim (R148, log 4). -/
def execOpenSession (p : Port) (session tag : Byte) (s : State) : Result :=
  .next (putTransaction p 5 (judgeFrame p 0x02 session tag []) s)

/-- CLOSE (R155): the port unit takes a CLOSE frame, which starts teardown (R148, log 4). -/
def execCloseSession (p : Port) (session tag : Byte) (s : State) : Result :=
  .next (putTransaction p 5 (judgeFrame p 0x03 session tag []) s)

/-- R156: the port unit at the assertion of PRSTn: the slot READY, what it held discarded, close-pending and
FRAME_DISCARDED cleared; requests already dispatched are not recalled, but their answers will be discarded (R150). -/
def PortUnit.reseted (u : PortUnit) : PortUnit :=
  { u with slot := .ready, closePending := false, frameDiscarded := false, prstn := true,
           inFlight := u.inFlight.map fun d => { d with awaited := false } }

/-- PRSTN_ASSERT (R156): a change of PRSTn from high to low; in OPEN it starts teardown. A level already low does not
change (log 1). -/
def execPrstnAssert (p : Port) (s : State) : Result :=
  let u := s.ports.get p
  if u.prstn then .next s
  else
    let s' := s.setPort p u.reseted
    .next (if u.session = .opened then startTeardown p s' else s')

/-- PRSTN_RELEASE (R156): no state changes but the level, and the link accepts transactions again. -/
def execPrstnRelease (p : Port) (s : State) : Result :=
  .next (s.setPort p { s.ports.get p with prstn := false })

end Sys2Proof.Machine
end

