-- ==== Sys2Proof/Machine/Relay.lean ====
section
/-!
DEFINITION. The message relay (07): POST, TAKE and WITHDRAW MESSAGE, the message events, and stage 2 of a teardown.
-/

namespace Sys2Proof.Machine

/-- R139: a message event: its source is the message id, its generation 0, its value a port. -/
def messageEvent (kind : EventKind) (cause : Option Cause) (id : Byte) (about : Port) (time : Word) : Event :=
  { kind := kind, cause := cause, source := some (.message id), detail := none, generation := 0, value := about.val,
    timestamp := time }

/-- R134: an id is free when no held message carries it. -/
def idFree (pool : List Message) (k : Nat) : Bool := pool.all fun m => m.id ≠ byteOf k

/-- R134: the lowest message id that no held message carries. -/
def lowestId (pool : List Message) : Byte :=
  match (List.range (pool.length + 1)).find? (idFree pool) with
  | some k => byteOf k
  | none => 0

/-- R133: the held messages addressed to a port, oldest post first. -/
def addressedTo (p : Port) (pool : List Message) : List Message := pool.filter fun m => m.recipient = p

/-- R135: the held messages of a port's current session. -/
def ofSession (p : Port) (number : Byte) (pool : List Message) : List Message :=
  pool.filter fun m => m.sender = p ∧ m.senderSession = number

/-- R136: the record of an accepted POST MESSAGE. -/
def newMessage (p recipient : Port) (notify : Bool) (payload : List Byte) (s : State) : Message :=
  { id := lowestId s.pool, sender := p, senderSession := (s.ports.get p).number, recipient := recipient,
    notify := notify, payload := payload, posted := s.timebase }

/-- R135, R136: POST MESSAGE. -/
def postMessage (p recipient : Port) (notify : Bool) (payload : List Byte) (s : State) : State × Answer :=
  if Config.poolMax ≤ s.pool.length then (s, .refuse .poolFull)
  else if Config.senderMax ≤ (ofSession p (s.ports.get p).number s.pool).length then (s, .refuse .senderLimit)
  else if (s.ports.get recipient).session ≠ .opened then (s, .refuse .noRecipient)
  else if recipient = p ∨ payload.length = 0 ∨ Config.messageMax < payload.length then (s, .refuse .badArgument)
  else
    let m := newMessage p recipient notify payload s
    ((s.setPool (s.pool ++ [m])).hand .messageRelay
        [(recipient, messageEvent .messageArrived none m.id p m.posted)],
      .ok (m.id :: le32 m.posted ++ [byteOf (addressedTo recipient (s.pool ++ [m])).length]))

/-- R137: MESSAGE_TAKEN, when the sender asked for it and its posting session has not ended. -/
def takenEvents (m : Message) (now : Word) : List (Port × Event) :=
  if m.notify ∧ m.senderSession ≠ 0 then [(m.sender, messageEvent .messageTaken none m.id m.recipient now)] else []

/-- R137: TAKE MESSAGE. -/
def takeMessage (p : Port) (s : State) : State × Answer :=
  match pick (fun m => m.recipient = p) s.pool with
  | none => (s, ⟨.notFound, [0]⟩)
  | some (m, rest) =>
    ((s.setPool rest).hand .messageRelay (takenEvents m s.timebase),
      .ok ([m.id, finCode m.sender, m.senderSession, boolCode m.notify, byteOf m.payload.length] ++ le32 m.posted ++
        [byteOf (addressedTo p rest).length] ++ m.payload))

/-- R138: WITHDRAW MESSAGE: a held message that carries the id, sent by the requester's current session. Its response is
the recipient, the length and the post timestamp, as R138 and R165 list it; the id that R134 puts in the responses of all
three requests is not in it (DESIGN CHOICE, log 18: chapter 9 alone gives byte layouts, 00_scope). -/
def withdrawMessage (p : Port) (id : Byte) (s : State) : State × Answer :=
  match pick (fun m => m.id = id ∧ m.sender = p ∧ m.senderSession = (s.ports.get p).number) s.pool with
  | none => (s, .refuse .notFound)
  | some (m, rest) =>
    (s.setPool rest, .ok ([finCode m.recipient, byteOf m.payload.length] ++ le32 m.posted))

/-- R139, R140: MESSAGE_UNDELIVERED for a message discarded at its recipient's teardown, if its sender still listens. -/
def undeliveredEvents (ports : Table 4 PortUnit) (now : Word) (m : Message) : List (Port × Event) :=
  if m.senderSession ≠ 0 ∧ (ports.get m.sender).session = .opened then
    [(m.sender, messageEvent .messageUndelivered (some .teardown) m.id m.recipient now)]
  else []

/-- R140: the messages addressed to a port, in ascending message id. -/
def byId (ms : List Message) : List Message := (List.range 256).flatMap fun k => ms.filter fun m => m.id = byteOf k

/-- R140: a message whose posting session ends carries sender session 0. -/
def Message.orphaned (p : Port) (number : Byte) (m : Message) : Message :=
  if m.sender = p ∧ m.senderSession = number then { m with senderSession := 0 } else m

/-- R140: stage 2 of a port's teardown at the relay. -/
def relayTearDown (p : Port) (s : State) : State :=
  State.hand .messageRelay ((byId (addressedTo p s.pool)).flatMap (undeliveredEvents s.ports s.timebase))
    (s.setPool ((s.pool.filter fun m => m.recipient ≠ p).map (Message.orphaned p (s.ports.get p).number)))

/-! ### The meanings -/

/-- POST_MESSAGE (R135). -/
def execPostMessage (p : Port) (recipient : Port) (notify : Bool) (payload : List Byte) (s : State) : Result :=
  claim p (.postMessage recipient notify payload) (postMessage p recipient notify payload) s

/-- TAKE_MESSAGE (R137). -/
def execTakeMessage (p : Port) (s : State) : Result := claim p .takeMessage (takeMessage p) s

/-- WITHDRAW_MESSAGE (R138). -/
def execWithdrawMessage (p : Port) (id : Byte) (s : State) : Result :=
  claim p (.withdrawMessage id) (withdrawMessage p id) s

end Sys2Proof.Machine
end

