-- ==== Sys2Proof/Machine/Teardown.lean ====
section
/-!
DEFINITION. The stages 2 to 6 of a teardown (R157): each is one claim of its owner, sent once the owners of the stage
before have taken theirs, and taken after the requests that the port dispatched to the same owner before (R150).
-/

namespace Sys2Proof.Machine

/-- R157: the stage of a port's teardown that is to be taken next. -/
def PortUnit.stage (u : PortUnit) : Option Stage :=
  match u.session with
  | .closing st => some st
  | _ => none

/-- R157: the session with the stage that is to be taken next. -/
def State.toStage (p : Port) (st : Stage) (s : State) : State :=
  s.setPort p { s.ports.get p with session := .closing st }

/-- R150, R157: a stage at an owner may be taken when it is the port's next one and no request of the port to that owner
is still to be taken. -/
def State.stageReady (p : Port) (st : Stage) (o : Owner) (s : State) : Bool :=
  (s.ports.get p).stage == some st && !inFlightTo o (s.ports.get p).inFlight

/-- TEARDOWN_STAGE_2 (R140), at the message relay. -/
def execTeardownStage2 (p : Port) (s : State) : Result :=
  .next (if s.stageReady p .two .messageRelay then (relayTearDown p s).toStage p .three else s)

/-- TEARDOWN_STAGE_3 (R132), at the capture unit. -/
def execTeardownStage3 (p : Port) (s : State) : Result :=
  .next (if s.stageReady p .three .captureUnit then (captureTearDown p s).toStage p (.four (.all 4 false)) else s)

/-- R157: stage 4 with one more axis unit's claim taken; stage 5 is sent once all four have been taken. -/
def nextStage (taken : Table 4 Bool) : Stage :=
  if taken.having id = List.finRange 4 then .five else .four taken

/-- TEARDOWN_STAGE_4 (R37), at one axis unit: the four claims are independent, and each is taken once. -/
def execTeardownStage4 (p : Port) (ax : Axis) (s : State) : Result :=
  match (s.ports.get p).stage with
  | some (.four taken) =>
    if !taken.get ax && !inFlightTo (.axisUnit ax) (s.ports.get p).inFlight then
      .next ((s.axisStep ax ((s.axes.get ax).tearDown ax s.timebase p)).toStage p (nextStage (taken.put ax true)))
    else .next s
  | _ => .next s

/-- TEARDOWN_STAGE_5 (R52, R91), at the zone controller. -/
def execTeardownStage5 (p : Port) (s : State) : Result :=
  .next (if s.stageReady p .five .zoneController then (zoneTearDown p s).toStage p .six else s)

/-- R155, R157: the port unit at stage 6: the session CLOSED, and a pending CLOSE answered with the number of the session
that ended. -/
def PortUnit.ended (u : PortUnit) : PortUnit :=
  let u' := { u with session := .closed, closePending := false }
  if u.closePending then u'.receive true (.ok [u.number]) else u'

/-- TEARDOWN_STAGE_6 (R157), at the port unit. -/
def execTeardownStage6 (p : Port) (s : State) : Result :=
  .next (if (s.ports.get p).stage = some .six then s.setPort p (s.ports.get p).ended else s)

end Sys2Proof.Machine
end

