-- ==== Sys2Proof/Machine/Dispatch.lean ====
section
/-!
DEFINITION. One arm per command: each row of the opcode table and the definition that is its meaning.
-/

namespace Sys2Proof.Machine

def exec (i : Instr) (s : State) : Host.Outcome State Fault Refusal :=
    match i with
      | .put p frame => Sys2Proof.Machine.execPut p frame s
      | .get p clocked => Sys2Proof.Machine.execGet p clocked s
      | .peek p clocked => Sys2Proof.Machine.execPeek p clocked s
      | .voidTransaction p bytes => Sys2Proof.Machine.execVoidTransaction p bytes s
      | .identify p session tag => Sys2Proof.Machine.execIdentify p session tag s
      | .openSession p session tag => Sys2Proof.Machine.execOpenSession p session tag s
      | .closeSession p session tag => Sys2Proof.Machine.execCloseSession p session tag s
      | .teardownStage2 p => Sys2Proof.Machine.execTeardownStage2 p s
      | .teardownStage3 p => Sys2Proof.Machine.execTeardownStage3 p s
      | .teardownStage4 p ax => Sys2Proof.Machine.execTeardownStage4 p ax s
      | .teardownStage5 p => Sys2Proof.Machine.execTeardownStage5 p s
      | .teardownStage6 p => Sys2Proof.Machine.execTeardownStage6 p s
      | .prstnAssert p => Sys2Proof.Machine.execPrstnAssert p s
      | .prstnRelease p => Sys2Proof.Machine.execPrstnRelease p s
      | .rstnAssert => Sys2Proof.Machine.execRstnAssert s
      | .rstnRelease => Sys2Proof.Machine.execRstnRelease s
      | .supplyBelowRange => Sys2Proof.Machine.execSupplyBelowRange s
      | .startupPeriodEnd => Sys2Proof.Machine.execStartupPeriodEnd s
      | .configureAxis p ax multiplier direction low high pitch tolerance => Sys2Proof.Machine.execConfigureAxis p ax multiplier direction low high pitch tolerance s
      | .start p ax => Sys2Proof.Machine.execStart p ax s
      | .stop p ax => Sys2Proof.Machine.execStop p ax s
      | .resume p ax => Sys2Proof.Machine.execResume p ax s
      | .setOffset p ax offset => Sys2Proof.Machine.execSetOffset p ax offset s
      | .readAxes p => Sys2Proof.Machine.execReadAxes p s
      | .subscribeAxis p ax => Sys2Proof.Machine.execSubscribeAxis p ax s
      | .unsubscribeAxis p ax => Sys2Proof.Machine.execUnsubscribeAxis p ax s
      | .align p ax preset qualifier direction => Sys2Proof.Machine.execAlign p ax preset qualifier direction s
      | .cancelAlign p ax => Sys2Proof.Machine.execCancelAlign p ax s
      | .encoderStep ax raw => Sys2Proof.Machine.execEncoderStep ax raw s
      | .skippedState ax => Sys2Proof.Machine.execSkippedState ax s
      | .lineFaultRise ax => Sys2Proof.Machine.execLineFaultRise ax s
      | .lineFaultFall ax => Sys2Proof.Machine.execLineFaultFall ax s
      | .indexPulse ax => Sys2Proof.Machine.execIndexPulse ax s
      | .sample ax => Sys2Proof.Machine.execSample ax s
      | .rebaseNotice ax => Sys2Proof.Machine.execRebaseNotice ax s
      | .freezeNotice ax => Sys2Proof.Machine.execFreezeNotice ax s
      | .thawNotice ax => Sys2Proof.Machine.execThawNotice ax s
      | .defineZone p ax lower upper guard capture choice => Sys2Proof.Machine.execDefineZone p ax lower upper guard capture choice s
      | .modifyZone p z generation lower upper guard capture => Sys2Proof.Machine.execModifyZone p z generation lower upper guard capture s
      | .deleteZone p z generation => Sys2Proof.Machine.execDeleteZone p z generation s
      | .readZone p z => Sys2Proof.Machine.execReadZone p z s
      | .listZones p start => Sys2Proof.Machine.execListZones p start s
      | .subscribeZone p z generation filter => Sys2Proof.Machine.execSubscribeZone p z generation filter s
      | .unsubscribeZone p z => Sys2Proof.Machine.execUnsubscribeZone p z s
      | .claimOutput p o duration wait => Sys2Proof.Machine.execClaimOutput p o duration wait s
      | .renewLease p o duration => Sys2Proof.Machine.execRenewLease p o duration s
      | .releaseOutput p o => Sys2Proof.Machine.execReleaseOutput p o s
      | .cancelWait p o => Sys2Proof.Machine.execCancelWait p o s
      | .mapOutput p o zones => Sys2Proof.Machine.execMapOutput p o zones s
      | .forceOutput p o force => Sys2Proof.Machine.execForceOutput p o force s
      | .configureOutput p o policy hold => Sys2Proof.Machine.execConfigureOutput p o policy hold s
      | .readOutputs p => Sys2Proof.Machine.execReadOutputs p s
      | .leaseTick => Sys2Proof.Machine.execLeaseTick s
      | .leaseExpiry o => Sys2Proof.Machine.execLeaseExpiry o s
      | .oholdChange active => Sys2Proof.Machine.execOholdChange active s
      | .eventAppend p producer => Sys2Proof.Machine.execEventAppend p producer s
      | .fetchEvents p n => Sys2Proof.Machine.execFetchEvents p n s
      | .ackEvents p sequence => Sys2Proof.Machine.execAckEvents p sequence s
      | .setAttention p enabled => Sys2Proof.Machine.execSetAttention p enabled s
      | .triggerEdge t edge => Sys2Proof.Machine.execTriggerEdge t edge s
      | .latchSnapshotWrite t => Sys2Proof.Machine.execLatchSnapshotWrite t s
      | .zoneCaptureClaim => Sys2Proof.Machine.execZoneCaptureClaim s
      | .configureTrigger p t edge axes => Sys2Proof.Machine.execConfigureTrigger p t edge axes s
      | .attachCursor p mode => Sys2Proof.Machine.execAttachCursor p mode s
      | .detachCursor p => Sys2Proof.Machine.execDetachCursor p s
      | .readCaptures p m => Sys2Proof.Machine.execReadCaptures p m s
      | .postMessage p recipient notify payload => Sys2Proof.Machine.execPostMessage p recipient notify payload s
      | .takeMessage p => Sys2Proof.Machine.execTakeMessage p s
      | .withdrawMessage p id => Sys2Proof.Machine.execWithdrawMessage p id s
      | .supplyReturnToRange => Sys2Proof.Machine.execSupplyReturnToRange s

end Sys2Proof.Machine
end

