-- ==== Sys2Proof/Safety.lean ====
section
/-!
DEFINITION. What claims about this part are stated in: a request as the command that takes it, what the outside needs for a
request to be taken, and the laws the data sheet states for its blocks, as invariants of the state.
-/

namespace Sys2Proof

open Machine

/-- The command by which the owner takes a request of a port. -/
def Request.command (p : Port) : Request → Instr
  | .configureAxis ax m d low high pitch tol => .configureAxis p ax m d low high pitch tol
  | .start ax => .start p ax
  | .stop ax => .stop p ax
  | .resume ax => .resume p ax
  | .setOffset ax off => .setOffset p ax off
  | .readAxes => .readAxes p
  | .subscribeAxis ax => .subscribeAxis p ax
  | .unsubscribeAxis ax => .unsubscribeAxis p ax
  | .align ax preset q d => .align p ax preset q d
  | .cancelAlign ax => .cancelAlign p ax
  | .defineZone ax lo up g c f => .defineZone p ax lo up g c f
  | .modifyZone z n lo up g c => .modifyZone p z n lo up g c
  | .deleteZone z n => .deleteZone p z n
  | .readZone z => .readZone p z
  | .listZones z => .listZones p z
  | .subscribeZone z n f => .subscribeZone p z n f
  | .unsubscribeZone z => .unsubscribeZone p z
  | .claimOutput o d w => .claimOutput p o d w
  | .renewLease o d => .renewLease p o d
  | .releaseOutput o => .releaseOutput p o
  | .cancelWait o => .cancelWait p o
  | .mapOutput o zs => .mapOutput p o zs
  | .forceOutput o f => .forceOutput p o f
  | .configureOutput o pol h => .configureOutput p o pol h
  | .readOutputs => .readOutputs p
  | .fetchEvents n => .fetchEvents p n
  | .ackEvents q => .ackEvents p q
  | .setAttention b => .setAttention p b
  | .configureTrigger t e s => .configureTrigger p t e s
  | .attachCursor m => .attachCursor p m
  | .detachCursor => .detachCursor p
  | .readCaptures m => .readCaptures p m
  | .postMessage r n pl => .postMessage p r n pl
  | .takeMessage => .takeMessage p
  | .withdrawMessage id => .withdrawMessage p id

namespace Machine

/-! ### Requests -/

/-- Port `p` has dispatched the request and its owner is to take it next among the port's; `awaited` says whether the slot
awaits the answer, `rest` is what stays in flight. -/
def State.Flying (s : State) (p : Port) (r : Request) (awaited : Bool) (rest : List Dispatch) : Prop :=
  takeFirst r.owner (s.ports.get p).inFlight = some (⟨r, awaited⟩, rest)

/-- The port units after the owner's answer to a request of port `p` has come back: only that port's unit changes, in what
is in flight and in its slot (R150). -/
def State.answeredPorts (s : State) (p : Port) (awaited : Bool) (rest : List Dispatch) (a : Answer) : Table 4 PortUnit :=
  s.ports.put p (PortUnit.receive awaited a { s.ports.get p with inFlight := rest })

/-- The state after the owner's answer to a request of port `p` has come back, and nothing else. -/
def State.answered (s : State) (p : Port) (awaited : Bool) (rest : List Dispatch) (a : Answer) : State :=
  { s with ports := s.answeredPorts p awaited rest a }

/-- The state after the owner has refused a request of port `p` with a result that carries no payload. -/
def State.refusing (s : State) (p : Port) (awaited : Bool) (rest : List Dispatch) (r : ResultCode) : State :=
  s.answered p awaited rest ⟨r, []⟩

/-- The event queues after a producer has handed each port the events listed for it, in order (R98). -/
def State.told (s : State) (src : Producer) (es : Port → List Event) : Table 4 EventQueue :=
  s.queues.mapIdx fun p q => { q with arriving := q.arriving ++ (es p).map fun e => (src, e) }

/-- The drivers after a claim that leaves the output records as given (R74, R75): a driver whose line keeps its requested
value and hold response is not touched; another takes both, and its pin follows. -/
def State.driven (s : State) (outs : Table 8 Output) : Table 8 Driver :=
  s.drivers.mapIdx fun o d =>
    if (s.outputs.get o).requested = (outs.get o).requested ∧ (s.outputs.get o).hold = (outs.get o).hold then d
    else
      { requested := (outs.get o).requested, hold := (outs.get o).hold,
        pin := pinLevel s.ohold (outs.get o).hold (outs.get o).requested }

/-! ### The link -/

/-- R161: the status byte, bit 7 to bit 0: STARTING, session state, slot state, EVENTS_PENDING, FRAME_DISCARDED, 1. -/
def State.statusBits (s : State) (p : Port) : Byte :=
  let u := s.ports.get p
  BitVec.ofBool s.starting ++
    (match u.session with
      | .closed => 0#2
      | .opened => 1#2
      | .closing _ => 2#2) ++
    (match u.slot with
      | .ready => 0#2
      | .working .. => 1#2
      | .answerReady _ => 2#2) ++
    BitVec.ofBool (!(s.queues.get p).records.isEmpty) ++ BitVec.ofBool u.frameDiscarded ++ 1#1

/-- R146: the port takes a frame at its end: the link is alive, the start-up period over and the slot not WORKING; `note`
says whether a response is displaced. -/
structure State.Takes (s : State) (p : Port) (note : Bool) : Prop where
  alive : s.linkIgnored p = false
  started : s.starting = false
  slot : (note = false ∧ (s.ports.get p).slot = .ready) ∨ (note = true ∧ ∃ r, (s.ports.get p).slot = .answerReady r)

/-- R146, R148, R160: the port unit after it has answered a frame of `n` bytes at once. -/
def State.answersAtOnce (s : State) (p : Port) (n : Nat) (r : Response) : State :=
  s.setPort p { s.ports.get p with slot := .answerReady r, miso := zeros (n + 1) }

/-- R109, R112: an event queue after stage 1 of a teardown, with the attention enable that the requests in flight leave. -/
def State.closedQueue (s : State) (p : Port) : EventQueue :=
  { s.queues.get p with
    records := [], isOpen := false, attn := false
    attention := attentionAfter (s.ports.get p).inFlight (s.queues.get p).attention }

/-! ### The laws of the blocks -/

/-- Numbers that follow one another, the last followed by `n`. -/
def endsBefore {w : Nat} : List (BitVec w) → BitVec w → Prop
  | [], _ => True
  | [x], n => x + 1 = n
  | x :: y :: rest, n => x + 1 = y ∧ endsBefore (y :: rest) n

/-- R103, R112: the law of the event queue: at most 32 records, the 32nd a marker (R100), numbered consecutively up to the
next number; empty when CLOSED; ATTNn follows its condition. -/
structure EventQueue.Law (q : EventQueue) : Prop where
  capacity : q.records.length ≤ 31 ∨ (q.records.length = 32 ∧ lastIsMarker q.records = true)
  numbered : endsBefore (q.records.map EventRecord.sequence) q.next
  emptyClosed : q.isOpen = false → q.records = []
  attnFollows : q.attn = q.attnCondition

/-- R95, R103: every event queue keeps its law, and is OPEN exactly when the session of its port is. -/
def State.QueueLaw (s : State) : Prop :=
  ∀ p, (s.queues.get p).Law ∧ ((s.queues.get p).isOpen = true ↔ (s.ports.get p).session = .opened)

/-- R72, R87, R71: the laws of leases and forcing of one output: at most three waiters, none twice and never the holder;
no waiter and no force without a holder; durations in range, the timer at most one tick above the duration. -/
structure Output.LeaseLaw (out : Output) : Prop where
  atMostThree : out.waiters.length ≤ 3
  noneTwice : (out.waiters.map Waiter.port).Nodup
  unheld : out.lease = none → out.waiters = [] ∧ out.force = .none
  neverHolder : ∀ l, out.lease = some l → l.holder ∉ out.waiters.map Waiter.port
  leaseRange : ∀ l, out.lease = some l → durationOk l.duration = true ∧ l.timer ≤ l.duration + 1
  waitRange : ∀ w ∈ out.waiters, durationOk w.duration = true

/-- R72–R75, R86, R87: the laws of the output table and the drivers: leases; maps of defined zones; the requested value the
one the rule gives; the driver's copies those of the record and its pin what R75 gives. -/
structure State.OutputLaw (s : State) : Prop where
  leases : ∀ o, (s.outputs.get o).LeaseLaw
  maps : ∀ o z, z ∈ members (s.outputs.get o).map → (s.zones.get z).zone.isSome = true
  values : ∀ o, (s.outputs.get o).requested = requestedValue s.zones (s.outputs.get o)
  pins : ∀ o, s.drivers.get o =
    { requested := (s.outputs.get o).requested, hold := (s.outputs.get o).hold,
      pin := pinLevel s.ohold (s.outputs.get o).hold (s.outputs.get o).requested }

/-- R43, R45: the laws of the zone table: bounds in order, a zone frozen exactly when the view of its axis is, at most 16
zones of one author. -/
structure State.ZoneLaw (s : State) : Prop where
  bounds : ∀ z zn, (s.zones.get z).zone = some zn → zn.lower ≤ zn.upper ∧ zn.upper ≤ Config.positionMax
  frozen : ∀ z zn, (s.zones.get z).zone = some zn → (zn.frozen = true ↔ (s.views.get zn.axis).liveness ≠ .live)
  authors : ∀ p, (authored s.zones p).length ≤ Config.zonesPerAuthor

/-- R22: whether a view that is live or not is live after the messages of a path; none when a sample or a rebase would
reach it while it is not live. -/
def pathLive : Bool → List AxisMsg → Option Bool
  | live, [] => some live
  | live, .sample .. :: rest => if live then pathLive live rest else none
  | live, .rebase .. :: rest => if live then pathLive live rest else none
  | _, .freeze .. :: rest => pathLive false rest
  | _, .thaw .. :: rest => pathLive true rest

/-- R5–R7, R24: the law of the axis unit: count and offset in range; a live axis inside its window with its count strictly
inside its bounds; an alignment's preset one that can be loaded. -/
structure AxisUnit.Law (u : AxisUnit) : Prop where
  countRange : Config.countMin ≤ u.count ∧ u.count ≤ Config.countMax
  offsetRange : offsetInRange u.offset = true
  liveRange : u.state.isLive = true → u.inRange = true
  presetRange : ∀ a, u.state = .armed a → u.presetOk a.preset = true

/-- R7, R22, R43: every axis unit keeps its law, and the view of the zone controller is live exactly when the axis is, once
the path between them has been taken. -/
def State.AxisLaw (s : State) : Prop :=
  ∀ ax, (s.axes.get ax).Law ∧
    pathLive (decide ((s.views.get ax).liveness = .live)) (s.axes.get ax).outbox = some (s.axes.get ax).state.isLive

/-- R123, R125: the law of the capture ring: at most 64 records, numbered consecutively and ending at the counter; every
cursor between the oldest record and one more than the counter; a caught-up cursor with skip count 0. -/
structure CaptureUnit.Law (c : CaptureUnit) : Prop where
  capacity : c.ring.length ≤ 64
  numbered : endsBefore (c.ring.map CaptureRecord.sequence) (c.counter + 1)
  places : ∀ p k, c.cursors.get p = some k → toRead c.counter k.next ≤ c.ring.length
  caughtUp : ∀ p k, c.cursors.get p = some k → toRead c.counter k.next = 0 → k.skip = 0

/-- A session that may still hold what the relay keeps for it: OPEN, or CLOSING before stage 2. -/
def Session.mayRelay : Session → Bool
  | .opened => true
  | .closing .two => true
  | _ => false

/-- OPEN, or CLOSING before stage 3. -/
def Session.mayCapture : Session → Bool
  | .opened => true
  | .closing .two => true
  | .closing .three => true
  | _ => false

/-- OPEN, or CLOSING before the claim of stage 4 to an axis unit. -/
def Session.mayAxis (ax : Axis) : Session → Bool
  | .opened => true
  | .closing .two => true
  | .closing .three => true
  | .closing (.four taken) => !taken.get ax
  | _ => false

/-- OPEN, or CLOSING before stage 5. -/
def Session.mayZone : Session → Bool
  | .opened => true
  | .closing .two => true
  | .closing .three => true
  | .closing (.four _) => true
  | .closing .five => true
  | _ => false

/-- Whether a port in a session may still have requests in flight to an owner (R150): until that owner's stage. -/
def Session.may (ss : Session) : Owner → Bool
  | .axisUnit ax => ss.mayAxis ax
  | .snapshotLatch => true
  | .zoneController => ss.mayZone
  | .eventQueue => ss == .opened
  | .captureUnit => ss.mayCapture
  | .messageRelay => ss.mayRelay

/-- R133: the law of the pool: at most 16 messages, their ids apart and below 16; each addressed to another port, whose
session is OPEN or CLOSING (before its stage 2); the sender session that of a sender still standing, or 0; at most 8 of a
standing session; lengths in range. -/
structure State.PoolLaw (s : State) : Prop where
  capacity : s.pool.length ≤ Config.poolMax
  idsApart : (s.pool.map Message.id).Nodup
  idsLow : ∀ m ∈ s.pool, m.id.toNat < 16
  recipients : ∀ m ∈ s.pool, (s.ports.get m.recipient).session.mayRelay = true ∧ m.recipient ≠ m.sender
  senders : ∀ m ∈ s.pool, m.senderSession = 0 ∨
    (m.senderSession = (s.ports.get m.sender).number ∧ (s.ports.get m.sender).session.mayRelay = true)
  limits : ∀ p, (s.ports.get p).session.mayRelay = true →
    (s.ports.get p).number ≠ 0 ∧ (ofSession p (s.ports.get p).number s.pool).length ≤ Config.senderMax
  lengths : ∀ m ∈ s.pool, 1 ≤ m.payload.length ∧ m.payload.length ≤ Config.messageMax

/-- R157, R158: the law of the session, over every stage of a teardown: what a port holds with an owner, and what it has in
flight to it, it holds and has only until that owner's stage; a CLOSED port has none of it. -/
structure State.SessionLaw (s : State) : Prop where
  flights : ∀ p, ∀ d ∈ (s.ports.get p).inFlight, (s.ports.get p).session.may d.request.owner = true
  holders : ∀ o l, (s.outputs.get o).lease = some l → (s.ports.get l.holder).session.mayZone = true
  waiters : ∀ o, ∀ w ∈ (s.outputs.get o).waiters, (s.ports.get w.port).session.mayZone = true
  authors : ∀ z zn, (s.zones.get z).zone = some zn → (s.ports.get zn.author).session.mayZone = true
  zoneSubscribers : ∀ z zn p, (s.zones.get z).zone = some zn → (zn.subscribers.get p).isSome = true →
    (s.ports.get p).session.mayZone = true
  axisSubscribers : ∀ ax p, (s.axes.get ax).subscribers.get p = true → (s.ports.get p).session.mayAxis ax = true
  aligners : ∀ ax a, (s.axes.get ax).state = .armed a → (s.ports.get a.aligner).session.mayAxis ax = true
  cursors : ∀ p k, s.capture.cursors.get p = some k → (s.ports.get p).session.mayCapture = true
  triggers : ∀ t c, (s.triggers.get t).config = some c → (s.ports.get c.author).session.mayCapture = true

/-- R146, R150, R155: the law of the request slot: a port in WORKING awaits exactly one thing, the answer of one request in
flight or the end of the teardown its CLOSE began; in READY and ANSWER_READY it awaits nothing. -/
structure PortUnit.SlotLaw (u : PortUnit) : Prop where
  awaitsOne : ((u.inFlight.filter Dispatch.awaited).length + if u.closePending then 1 else 0) = if u.slot.code = 1 then 1 else 0
  closing : u.closePending = true → u.session.code = 2

/-- R146, R150: every request slot keeps its law. -/
def State.SlotLaw (s : State) : Prop := ∀ p, (s.ports.get p).SlotLaw

/-- R77, R169, R170: the timebase is held at 0 under reset; STARTING is present only before 3,000; fewer than
1,000 microseconds have passed since the last tick instant. -/
structure State.TimeLaw (s : State) : Prop where
  held : s.inReset = true → s.timebase = 0 ∧ s.starting = false
  startUp : s.starting = true → s.timebase.toNat < Config.startUpEnd
  tickAhead : s.sinceTick < Config.tickSpacing

end Machine

end Sys2Proof
end

