-- ==== Sys2Proof/Certificates/Slice0/Obligations.lean ====
section
/-!
DEFINITION. The statements about the ZH4 that are offered for proof: what each command does, from the numbered rules of the
spec, and the laws the data sheet states for the blocks, kept by every step.
-/

section

open Sys2Proof Sys2Proof.Machine

/-! ### Steps -/

/-- The step of a waiting command (asked of a block in place of a fetch). -/
def Obligations.StepRunsFrontCommand : Prop :=
  ∀ (s : State) (c : Instr) (rest : List Instr), s.pending = c :: rest → step s = exec c { s with pending := rest }

/-- R170, R77: with no command waiting a step is one microsecond (that it is, is the model's choice, log 2): the timebase
adds one, the start-up period ends at 3,000, and every 1,000th microsecond is a lease tick. -/
def Obligations.IdleStepIsOneMicrosecond : Prop :=
  ∀ s : State, s.pending = [] → s.TimeLaw →
    step s = .next (
      if s.inReset then s
      else
        { s with
          timebase := s.timebase + 1
          starting := s.starting && decide (s.timebase.toNat + 1 < 3000)
          sinceTick := if s.sinceTick = 999 then 0 else s.sinceTick + 1
          outputs := if s.sinceTick = 999 then s.outputs.mapIdx fun _ out => out.tick else s.outputs })

/-- 00 "General Description": no command stops the part, and none changes the commands that wait. -/
def Obligations.EveryCommandCompletes : Prop :=
  ∀ (s : State) (c : Instr), ∃ t : State, exec c s = .next t ∧ t.pending = s.pending

/-- Log 1 (DESIGN CHOICE): a command that names a step for which there is nothing to take changes nothing; so does a level
that PRSTn, a line fault, a trigger input, RSTN or the supply at its return, or OHOLD (under the law of the output table) has
already, and a period on a link that is no transaction or not void (R143). A teardown stage waits while a request of the
port to its owner is still in flight (R150). Under part reset no time passes (log 14). RSTN_ASSERT and SUPPLY_BELOW_RANGE are
not among these: at a level held already they still do what `PartReset` says. -/
def Obligations.NothingToTakeChangesNothing : Prop :=
  ∀ s : State,
    (∀ p r, (∀ aw rest, ¬ s.Flying p r aw rest) → exec (r.command p) s = .next s) ∧
    (∀ ax, (∀ x a, (s.axes.get ax).outbox.head? ≠ some (.sample x a)) → exec (.sample ax) s = .next s) ∧
    (∀ ax, (∀ x c, (s.axes.get ax).outbox.head? ≠ some (.rebase x c)) → exec (.rebaseNotice ax) s = .next s) ∧
    (∀ ax, (∀ x c, (s.axes.get ax).outbox.head? ≠ some (.freeze x c)) → exec (.freezeNotice ax) s = .next s) ∧
    (∀ ax, (∀ x c, (s.axes.get ax).outbox.head? ≠ some (.thaw x c)) → exec (.thawNotice ax) s = .next s) ∧
    (∀ p src, (∀ a ∈ (s.queues.get p).arriving, a.1 ≠ src) → exec (.eventAppend p src) s = .next s) ∧
    (∀ o, (s.outputs.get o).expiryClaim = false → exec (.leaseExpiry o) s = .next s) ∧
    (∀ t, (s.triggers.get t).latch = none → exec (.latchSnapshotWrite t) s = .next s) ∧
    (s.capture.waiting = [] → exec .zoneCaptureClaim s = .next s) ∧
    (∀ p, ((s.ports.get p).session ≠ .closing .two ∨ inFlightTo .messageRelay (s.ports.get p).inFlight = true) →
      exec (.teardownStage2 p) s = .next s) ∧
    (∀ p, ((s.ports.get p).session ≠ .closing .three ∨ inFlightTo .captureUnit (s.ports.get p).inFlight = true) →
      exec (.teardownStage3 p) s = .next s) ∧
    (∀ p ax, ((∀ taken, (s.ports.get p).session = .closing (.four taken) → taken.get ax = true) ∨
        inFlightTo (.axisUnit ax) (s.ports.get p).inFlight = true) →
      exec (.teardownStage4 p ax) s = .next s) ∧
    (∀ p, ((s.ports.get p).session ≠ .closing .five ∨ inFlightTo .zoneController (s.ports.get p).inFlight = true) →
      exec (.teardownStage5 p) s = .next s) ∧
    (∀ p, (s.ports.get p).session ≠ .closing .six → exec (.teardownStage6 p) s = .next s) ∧
    (∀ p, (s.ports.get p).prstn = true → exec (.prstnAssert p) s = .next s) ∧
    (∀ p, (s.ports.get p).prstn = false → exec (.prstnRelease p) s = .next s) ∧
    (∀ ax, (s.axes.get ax).lineFault = true → exec (.lineFaultRise ax) s = .next s) ∧
    (∀ ax, (s.axes.get ax).lineFault = false → exec (.lineFaultFall ax) s = .next s) ∧
    (∀ t, exec (.triggerEdge t (if (s.triggers.get t).level then .rise else .fall)) s = .next s) ∧
    (s.OutputLaw → exec (.oholdChange s.ohold) s = .next s) ∧
    (∀ p, exec (.voidTransaction p []) s = .next s) ∧
    (∀ p b l, (b = 0xA5 ∨ b = 0x5A ∨ b = 0x3C) → exec (.voidTransaction p (b :: l)) s = .next s) ∧
    (s.rstn = false → exec .rstnRelease s = .next s) ∧
    (s.supplyOk = true → exec .supplyReturnToRange s = .next s) ∧
    (s.starting = false → exec .startupPeriodEnd s = .next s) ∧
    ((s.rstn = true ∨ s.supplyOk = false) → exec .startupPeriodEnd s = .next s ∧ exec .leaseTick s = .next s)

/-! ### The link -/

/-- R143, R169: while RSTN is asserted, a supply is below its range or PRSTn is held asserted, a transaction changes no
slot, session or flag, and the port clocks out 0x00 for every byte. (That the commands IDENTIFY, OPEN and CLOSE are a whole
5-byte PUT is the model's reading, log 4, DEDUCED.) -/
def Obligations.IgnoredLinkChangesNothing : Prop :=
  ∀ (s : State) (p : Port), (s.rstn = true ∨ s.supplyOk = false ∨ (s.ports.get p).prstn = true) →
    let silent (n : Nat) : State := s.setPort p { s.ports.get p with miso := List.replicate n 0 }
    (∀ f, exec (.put p f) s = .next (silent (f.length + 1))) ∧
    (∀ n, exec (.get p n) s = .next (silent (n + 1))) ∧
    (∀ n, exec (.peek p n) s = .next (silent (n + 1))) ∧
    (∀ b l, isTypeCode b = false → exec (.voidTransaction p (b :: l)) s = .next (silent (l.length + 1))) ∧
    (∀ number tag, exec (.identify p number tag) s = .next (silent 6)) ∧
    (∀ number tag, exec (.openSession p number tag) s = .next (silent 6)) ∧
    (∀ number tag, exec (.closeSession p number tag) s = .next (silent 6))

/-- R146: during the start-up period and in WORKING a frame is discarded and FRAME_DISCARDED is set; nothing else changes.
(That the commands IDENTIFY, OPEN and CLOSE are a whole 5-byte PUT is the model's reading, log 4, DEDUCED.) -/
def Obligations.PutDiscarded : Prop :=
  ∀ (s : State) (p : Port), s.linkIgnored p = false →
    (s.starting = true ∨ ∃ code tag note, (s.ports.get p).slot = .working code tag note) →
    let discarded (n : Nat) : State :=
      s.setPort p { s.ports.get p with frameDiscarded := true, miso := List.replicate n 0 }
    (∀ f, exec (.put p f) s = .next (discarded (f.length + 1))) ∧
    (∀ number tag, exec (.identify p number tag) s = .next (discarded 6)) ∧
    (∀ number tag, exec (.openSession p number tag) s = .next (discarded 6)) ∧
    (∀ number tag, exec (.closeSession p number tag) s = .next (discarded 6))

/-- R147: a taken frame whose length is wrong is answered FRAME_ERROR, else one whose check byte is wrong CHECK_ERROR; the
response echoes the code and tag bytes as received, 0 for one that did not arrive, and carries no payload. -/
def Obligations.PutFrameTests : Prop :=
  ∀ (s : State) (p : Port) (note : Bool) (f : List Byte), s.Takes p note →
    let bad (r : ResultCode) : State := s.answersAtOnce p f.length ⟨f.getD 1 0, f.getD 3 0, r, note, []⟩
    let wrongLength :=
      f.length < 5 ∨ (f.getD 0 0).toNat < 5 ∨ 64 < (f.getD 0 0).toNat ∨ f.length ≠ (f.getD 0 0).toNat
    (wrongLength → exec (.put p f) s = .next (bad .frameError)) ∧
    (¬ wrongLength → f.getD (f.length - 1) 0 ≠ crc8 f.dropLast → exec (.put p f) s = .next (bad .checkError))

/-- R148, R154, R167: a frame that passes the frame tests is refused, in this order, for its code, for its session, for its
payload (`row.parse` names the offset of the first wrong field, 0xFF for the length). No malformed payload passes: one that
parses is, byte for byte, the payload of a well-formed request of that code, or empty for IDENTIFY, OPEN and CLOSE (R165). -/
def Obligations.PutRefused : Prop :=
  ∀ (s : State) (p : Port) (note : Bool) (code number tag : Byte) (payload : List Byte), s.Takes p note →
    payload.length ≤ 59 →
    let u := s.ports.get p
    let run := exec (.put p (requestFrame code number tag payload)) s
    let answers (r : ResultCode) (pl : List Byte) : Result :=
      .next (s.answersAtOnce p (payload.length + 5) ⟨code, tag, r, note, pl⟩)
    (requestRow code = none → run = answers .unknownRequest []) ∧
    ∀ row, requestRow code = some row →
      (code = 0x02 → u.session = .opened → run = answers .sessionOpen []) ∧
      (code = 0x02 → (∃ st, u.session = .closing st) → run = answers .sessionClosing []) ∧
      (code = 0x03 → (∃ st, u.session = .closing st) → run = answers .sessionClosing []) ∧
      (code = 0x03 → u.session = .closed → run = answers .noSession []) ∧
      (code ≠ 0x01 → code ≠ 0x02 → code ≠ 0x03 → u.session ≠ .opened → run = answers .noSession []) ∧
      (code ≠ 0x01 → code ≠ 0x02 → u.session = .opened → number ≠ u.number → run = answers .staleSession []) ∧
      (∀ off, row.parse payload = .error off →
        (code = 0x01 ∨ (code = 0x02 ∧ u.session = .closed) ∨
          (code ≠ 0x01 ∧ code ≠ 0x02 ∧ u.session = .opened ∧ number = u.number)) →
        run = answers .badPayload [off]) ∧
      (∀ asked, row.parse payload = .ok asked → match asked with
        | .identify => code = 0x01 ∧ payload = []
        | .openSession => code = 0x02 ∧ payload = []
        | .closeSession => code = 0x03 ∧ payload = []
        | .dispatched r => code = r.code ∧ payload = r.payload ∧ r.wellFormed = true)

/-- R147, R148, R162, R163, R165: every request a frame can carry, in a frame of the current session, is dispatched as
itself: the slot goes to WORKING and nothing but the port unit changes. No bit of the encoding is dropped. The frames of the
three requests that the port unit executes itself do what the commands IDENTIFY, OPEN and CLOSE do, in every state (log 4,
DEDUCED). -/
def Obligations.PutDispatched : Prop :=
  ∀ (s : State) (p : Port) (tag : Byte),
    (∀ (note : Bool) (r : Request), s.Takes p note → r.wellFormed = true → (s.ports.get p).session = .opened →
      exec (.put p (requestFrame r.code (s.ports.get p).number tag r.payload)) s =
        .next (s.setPort p
          { s.ports.get p with
            slot := .working r.code tag note
            inFlight := (s.ports.get p).inFlight ++ [⟨r, true⟩]
            miso := List.replicate (r.payload.length + 6) 0 })) ∧
    (∀ number, exec (.put p (requestFrame 0x01 number tag [])) s = exec (.identify p number tag) s) ∧
    (∀ number, exec (.put p (requestFrame 0x02 number tag [])) s = exec (.openSession p number tag) s) ∧
    (∀ number, exec (.put p (requestFrame 0x03 number tag [])) s = exec (.closeSession p number tag) s) ∧
    (∀ (code number : Byte) (payload : List Byte),
      let body : List Byte := [BitVec.ofNat 8 (payload.length + 5), code, number, tag] ++ payload
      requestFrame code number tag payload = body ++ [crc8 body])

/-- R144, R149, R161: GET clocks out the status byte, the held response, then fill; the response is delivered when every
byte of it was clocked out, else kept; the reported FRAME_DISCARDED is cleared (R145). The response frame is that of R162,
its result code that of R166, its check byte that of R163. -/
def Obligations.GetReadsResponse : Prop :=
  ∀ (s : State) (p : Port) (n : Nat), s.linkIgnored p = false →
    let u := s.ports.get p
    let shift (r : Byte) : Byte := if r.getLsbD 7 then (r <<< 1) ^^^ 0x2F else r <<< 1
    let check (l : List Byte) : Byte :=
      l.foldl (fun r b => shift (shift (shift (shift (shift (shift (shift (shift (r ^^^ b))))))))) 0xFF
    let held : List Byte := match u.slot with
      | .answerReady r =>
        let body : List Byte :=
          [BitVec.ofNat 8 (r.payload.length + 6), r.code, r.tag, r.result.code, if r.note then 1 else 0] ++ r.payload
        body ++ [check body]
      | _ => []
    exec (.get p n) s = .next (s.setPort p
      { u with
        slot := match u.slot with
          | .answerReady r => if held.length + 1 ≤ n then .ready else .answerReady r
          | sl => sl
        frameDiscarded := if n = 0 then u.frameDiscarded else false
        miso := 0 :: (s.statusBits p :: held ++ List.replicate n 0).take n }) ∧
    [ResultCode.ok, .queued, .frameError, .checkError, .unknownRequest, .badPayload, .noSession, .staleSession, .sessionOpen,
        .sessionClosing, .badArgument, .axisState, .axisBusy, .lineFault, .outOfRange, .notAligner, .notSubscribed,
        .tableFull, .authorLimit, .noSuchZone, .notAuthor, .generationMismatch, .zoneInUse, .alreadyHolder, .held,
        .alreadyWaiting, .notHolder, .notWaiting, .badSequence, .triggerInUse, .noCursor, .poolFull, .senderLimit,
        .noRecipient, .notFound].map ResultCode.code =
      [0x00, 0x01, 0x10, 0x11, 0x12, 0x13, 0x14, 0x15, 0x16, 0x17, 0x18, 0x20, 0x21, 0x22, 0x23, 0x24, 0x25, 0x30, 0x31,
        0x32, 0x33, 0x34, 0x35, 0x40, 0x41, 0x42, 0x43, 0x44, 0x50, 0x60, 0x61, 0x70, 0x71, 0x72, 0x73]

/-- R144, R161: PEEK clocks out the status byte and fill, and changes nothing but FRAME_DISCARDED. -/
def Obligations.PeekReadsStatus : Prop :=
  ∀ (s : State) (p : Port) (n : Nat), s.linkIgnored p = false →
    exec (.peek p n) s = .next (s.setPort p
      { s.ports.get p with
        frameDiscarded := if n = 0 then (s.ports.get p).frameDiscarded else false
        miso := 0 :: (s.statusBits p :: List.replicate n 0).take n })

/-- R143, R160: the first byte of a chip-select period selects the transaction; one whose first byte is no type code is void:
it clocks out 0x00 for every byte and sets FRAME_DISCARDED. A period without a byte has no effect. Every byte clocked in
clocks one byte out, the first of them 0x00. -/
def Obligations.VoidTransactionIsFlagged : Prop :=
  ∀ (s : State) (p : Port) (b : Byte) (l : List Byte),
    exec (linkCommand p []) s = .next s ∧
    linkCommand p (0xA5 :: l) = .put p l ∧
    linkCommand p (0x5A :: l) = .get p l.length ∧
    linkCommand p (0x3C :: l) = .peek p l.length ∧
    (∃ t : State, exec (linkCommand p (b :: l)) s = .next t ∧
      (t.ports.get p).miso.length = l.length + 1 ∧ (t.ports.get p).miso.head? = some 0) ∧
    (b ≠ 0xA5 → b ≠ 0x5A → b ≠ 0x3C →
      linkCommand p (b :: l) = .voidTransaction p (b :: l) ∧
      (s.linkIgnored p = false →
        exec (.voidTransaction p (b :: l)) s =
          .next (s.setPort p { s.ports.get p with frameDiscarded := true, miso := List.replicate (l.length + 1) 0 })))

/-! ### Sessions -/

/-- R152: IDENTIFY, in every session state and whatever session number its frame carries. (That the command is a whole PUT of
its frame is log 4, that its session state byte holds the codes of R161 is log 19; both DEDUCED.) -/
def Obligations.IdentifyReports : Prop :=
  ∀ (s : State) (p : Port) (note : Bool) (number tag : Byte), s.Takes p note →
    let u := s.ports.get p
    exec (.identify p number tag) s = .next (s.answersAtOnce p 5
      { code := 0x01, tag := tag, result := .ok, note := note
        payload :=
          [0x1C, 0x3A, 0x01, 0x04, 0x10, BitVec.ofNat 8 p.val,
            (match u.session with
              | .closed => 0
              | .opened => 1
              | .closing _ => 2),
            u.number, 4, 4, 32, 16, 8, 3, 32, 4, 64, 16, 8, 48] ++ le32 s.timebase })

/-- R153, R108: OPEN: in CLOSED the next session number, 255 followed by 1, and the event queue opened in the same claim;
refused in OPEN and in CLOSING. (That records handed over before the OPEN are gone is the model's reading, log 9; that the
command is a whole PUT of its frame, log 4, DEDUCED.) -/
def Obligations.OpenSession : Prop :=
  ∀ (s : State) (p : Port) (note : Bool) (number tag : Byte), s.Takes p note →
    let u := s.ports.get p
    let q := s.queues.get p
    let next : Byte := if u.number = 255 then 1 else u.number + 1
    (u.session = .closed →
      exec (.openSession p number tag) s = .next
        { s with
          ports := s.ports.put p
            { u with
              session := .opened, number := next, miso := List.replicate 6 0
              slot := .answerReady ⟨0x02, tag, .ok, note, next :: le32 s.timebase⟩ }
          queues := s.queues.put p
            { q with isOpen := true, next := 1, attention := true, attn := !q.records.isEmpty, arriving := [] } }) ∧
    (u.session = .opened →
      exec (.openSession p number tag) s = .next (s.answersAtOnce p 5 ⟨0x02, tag, .sessionOpen, note, []⟩)) ∧
    ((∃ st, u.session = .closing st) →
      exec (.openSession p number tag) s = .next (s.answersAtOnce p 5 ⟨0x02, tag, .sessionClosing, note, []⟩))

/-- R154, R155, R157 stage 1: CLOSE, in OPEN with the session's number, starts teardown and leaves the slot WORKING with
close-pending set; every record of the queue is removed, the queue is CLOSED and ATTNn deasserted (R109). Else it is
refused. (Requests in flight to the event queue are taken before the stage: log 10; that the command is a whole PUT of its
frame: log 4; both DEDUCED.) -/
def Obligations.CloseSession : Prop :=
  ∀ (s : State) (p : Port) (note : Bool) (number tag : Byte), s.Takes p note →
    let u := s.ports.get p
    let refused (r : ResultCode) : Result := .next (s.answersAtOnce p 5 ⟨0x03, tag, r, note, []⟩)
    (u.session = .opened → number = u.number →
      exec (.closeSession p number tag) s = .next
        { s with
          ports := s.ports.put p
            { u with
              session := .closing .two, closePending := true, slot := .working 0x03 tag note
              inFlight := u.inFlight.filter fun d => d.request.owner ≠ .eventQueue
              miso := List.replicate 6 0 }
          queues := s.queues.put p (s.closedQueue p) }) ∧
    (u.session = .opened → number ≠ u.number → exec (.closeSession p number tag) s = refused .staleSession) ∧
    (u.session = .closed → exec (.closeSession p number tag) s = refused .noSession) ∧
    ((∃ st, u.session = .closing st) → exec (.closeSession p number tag) s = refused .sessionClosing)

/-- R156: the assertion of PRSTn makes the slot READY, discards what it held, clears close-pending and FRAME_DISCARDED, and
in OPEN starts teardown; no request dispatched is recalled, but no answer is awaited. Its release changes only the level.
(Requests in flight to the event queue are taken before the stage: log 10.) -/
def Obligations.PortReset : Prop :=
  ∀ (s : State) (p : Port),
    let u := s.ports.get p
    let cleared : PortUnit :=
      { u with slot := .ready, closePending := false, frameDiscarded := false, prstn := true
               inFlight := u.inFlight.map fun d => ⟨d.request, false⟩ }
    (u.prstn = false → u.session ≠ .opened → exec (.prstnAssert p) s = .next (s.setPort p cleared)) ∧
    (u.prstn = false → u.session = .opened →
      exec (.prstnAssert p) s = .next
        { s with
          ports := s.ports.put p
            { cleared with session := .closing .two
                           inFlight := cleared.inFlight.filter fun d => d.request.owner ≠ .eventQueue }
          queues := s.queues.put p (s.closedQueue p) }) ∧
    exec (.prstnRelease p) s = .next (s.setPort p { u with prstn := false })

/-! ### Teardown -/

/-- R140: stage 2 at the message relay. The messages addressed to the port leave the pool, MESSAGE_UNDELIVERED going, in
ascending message id, to each sender whose posting session has not ended and whose session is OPEN; the messages of the
port's own session keep their places with sender session 0. -/
def Obligations.TeardownStage2 : Prop :=
  ∀ (s : State) (p : Port), (s.ports.get p).session = .closing .two →
    inFlightTo .messageRelay (s.ports.get p).inFlight = false →
    exec (.teardownStage2 p) s = .next
      { s with
        ports := s.ports.put p { s.ports.get p with session := .closing .three }
        pool := (s.pool.filter fun m => m.recipient ≠ p).map fun m =>
          if m.sender = p ∧ m.senderSession = (s.ports.get p).number then { m with senderSession := 0 } else m
        queues := s.told .messageRelay fun q =>
          (List.range 256).flatMap fun k =>
            (s.pool.filter fun m =>
              m.id = BitVec.ofNat 8 k ∧ m.recipient = p ∧ m.sender = q ∧ m.senderSession ≠ 0 ∧
                (s.ports.get q).session = .opened).map fun m =>
              { kind := .messageUndelivered, cause := some .teardown, source := some (.message m.id), detail := none,
                generation := 0, value := p.val, timestamp := s.timebase } }

/-- R132: stage 3 at the capture unit: the port's cursor DETACHED and its triggers OFF; latches, dropped-edge flags and the
ring are left as they are, and no event is sent. -/
def Obligations.TeardownStage3 : Prop :=
  ∀ (s : State) (p : Port), (s.ports.get p).session = .closing .three →
    inFlightTo .captureUnit (s.ports.get p).inFlight = false →
    exec (.teardownStage3 p) s = .next
      { s with
        ports := s.ports.put p { s.ports.get p with session := .closing (.four (.all 4 false)) }
        capture := { s.capture with cursors := s.capture.cursors.put p none }
        triggers := s.triggers.mapIdx fun _ t =>
          { t with config := if t.config.map TriggerConfig.author = some p then none else t.config } }

/-- R37, R20, R157: stage 4 at one axis unit: an alignment of the port ends in FREE, with AXIS_STATE TEARDOWN to the
subscriber set as it stood and nothing to the aligner; the port then leaves the set. Any other alignment and everything
else of the axis is kept. Stage 5 is next once all four axis units have taken theirs. -/
def Obligations.TeardownStage4 : Prop :=
  ∀ (s : State) (p : Port) (ax : Axis) (taken : Table 4 Bool), (s.ports.get p).session = .closing (.four taken) →
    taken.get ax = false → inFlightTo (.axisUnit ax) (s.ports.get p).inFlight = false →
    let u := s.axes.get ax
    let aligner : Bool := match u.state with
      | .armed a => decide (a.aligner = p)
      | _ => false
    exec (.teardownStage4 p ax) s = .next
      { s with
        ports := s.ports.put p
          { s.ports.get p with
            session :=
              if ∀ ax', (taken.put ax true).get ax' = true then .closing .five
              else .closing (.four (taken.put ax true)) }
        axes := s.axes.put ax
          { u with state := if aligner then .free else u.state, subscribers := u.subscribers.put p false }
        queues := s.told (.axisUnit ax) fun q =>
          if aligner ∧ u.subscribers.get q then
            [{ kind := .axisState, cause := some .teardown, source := some (.axis ax), detail := some (.axis .free),
               generation := 0, value := u.position, timestamp := s.timebase }]
          else [] }

/-- R52, R68, R91: stage 5 at the zone controller, one claim: the port leaves every wait queue, its leases end (no
LEASE_LOST, the head of the queue granted), its zone subscriptions end, and the zones it authors are deleted, each leaving
every map. The outputs whose lease ended or whose map was reduced are recomputed; values go to the drivers (R74). Events
in the order of R52: LEASE_GRANTED by line, then zone by zone ZONE_REMOVED and MAP_REDUCED by line (against R90's order by
line over the whole claim: the model's choice, log 21). -/
def Obligations.TeardownStage5 : Prop :=
  ∀ (s : State) (p : Port), (s.ports.get p).session = .closing .five →
    inFlightTo .zoneController (s.ports.get p).inFlight = false →
    let mine (z : ZoneId) : Bool := match (s.zones.get z).zone with
      | some zn => decide (zn.author = p)
      | none => false
    let held (o : Line) : Bool := decide ((s.outputs.get o).lease.map Lease.holder = some p)
    let queue (o : Line) : List Waiter := (s.outputs.get o).waiters.filter fun w => w.port ≠ p
    let lease (o : Line) : Option Lease :=
      if held o then (queue o).head?.map fun w => ⟨w.port, w.duration, w.duration + 1⟩ else (s.outputs.get o).lease
    let zones : Table 32 Slot := s.zones.mapIdx fun z sl =>
      { sl with
        zone := if mine z then none else sl.zone.map fun zn => { zn with subscribers := zn.subscribers.put p none } }
    let outs : Table 8 Output := s.outputs.mapIdx fun o out =>
      let out' : Output :=
        { out with
          map := BitVec.ofFnLE fun z => out.map.getLsbD z.val && !mine z
          lease := lease o
          waiters := if held o then (queue o).tail else queue o
          force := if held o then .none else out.force }
      { out' with
        requested :=
          if held o || (List.finRange 32).any (fun z => out.map.getLsbD z.val && mine z) then requestedValue zones out'
          else out.requested }
    exec (.teardownStage5 p) s = .next
      { s with
        ports := s.ports.put p { s.ports.get p with session := .closing .six }
        zones := zones
        outputs := outs
        drivers := s.driven outs
        queues := s.told .zoneController fun q =>
          ((List.finRange 8).flatMap fun o =>
            match (if held o then (queue o).head? else none) with
            | none => []
            | some w =>
              if w.port = q then
                [{ kind := .leaseGranted, cause := some .teardown, source := some (.line o), detail := none,
                   generation := 0, value := w.duration, timestamp := s.timebase }]
              else []) ++
          (List.finRange 32).flatMap fun z =>
            match (s.zones.get z).zone with
            | none => []
            | some zn =>
              if zn.author ≠ p then []
              else
                (if q ≠ p ∧ (zn.subscribers.get q).isSome then
                  [{ kind := .zoneRemoved, cause := some .teardown, source := some (.zone z),
                     detail := some (.membership zn.membership), generation := (s.zones.get z).generation,
                     value := (s.views.get zn.axis).last, timestamp := s.timebase }]
                else []) ++
                (List.finRange 8).flatMap fun o =>
                  if (s.outputs.get o).map.getLsbD z.val = true ∧ (lease o).map Lease.holder = some q then
                    [{ kind := .mapReduced, cause := some .teardown, source := some (.line o), detail := none,
                       generation := (s.zones.get z).generation, value := z.val, timestamp := s.timebase }]
                  else [] }

/-- R155, R157: stage 6 at the port unit: the session CLOSED, its number kept, close-pending cleared and a pending CLOSE
answered OK with the number of the session that ended. -/
def Obligations.TeardownStage6 : Prop :=
  ∀ (s : State) (p : Port), (s.ports.get p).session = .closing .six →
    let u := s.ports.get p
    (u.closePending = false → exec (.teardownStage6 p) s = .next (s.setPort p { u with session := .closed })) ∧
    (∀ code tag note, u.closePending = true → u.slot = .working code tag note →
      exec (.teardownStage6 p) s = .next (s.setPort p
        { u with session := .closed, closePending := false
                 slot := .answerReady ⟨code, tag, .ok, note, [u.number]⟩ }))

/-! ### Part reset and start-up -/

/-- R159, R169, 10.5: RSTN asserted, or a supply below its range: every block at its after-reset values, the timebase 0,
whatever the state was. Only what follows the pins is kept (PRSTn, OHOLD, line faults, the phase, trigger levels), and
what is the model's own. -/
def Obligations.PartReset : Prop :=
  ∀ s : State,
    let cleared : State :=
      { State.reset with
        pending := s.pending, rstn := s.rstn, supplyOk := s.supplyOk, starting := false, ohold := s.ohold
        ports := s.ports.mapIdx fun _ u => .reset u.prstn
        axes := s.axes.mapIdx fun _ u => .reset u.lineFault u.phase
        triggers := s.triggers.mapIdx fun _ t => .reset t.level
        freeCount := s.freeCount }
    exec .rstnAssert s = .next { cleared with rstn := true } ∧
    exec .supplyBelowRange s = .next { cleared with supplyOk := false }

/-- R169, R170, 10.5: at the release of RSTN, or the return of the supply (log 8, DEDUCED), with the other not holding the
part in reset, the timebase begins from 0 with STARTING present; at 3,000 STARTING becomes absent. (That the command
STARTUP_PERIOD_END runs the timebase on to 3,000, passing tick instants over, is the model's choice, log 2.) -/
def Obligations.StartUp : Prop :=
  ∀ s : State,
    (s.rstn = true → exec .rstnRelease s = .next (
      if s.supplyOk then { s with rstn := false, timebase := 0, sinceTick := 0, starting := true }
      else { s with rstn := false })) ∧
    (s.supplyOk = false → exec .supplyReturnToRange s = .next (
      if s.rstn then { s with supplyOk := true }
      else { s with supplyOk := true, timebase := 0, sinceTick := 0, starting := true })) ∧
    (s.starting = true → s.rstn = false → s.supplyOk = true →
      exec .startupPeriodEnd s = .next { s with timebase := 3000, sinceTick := 0, starting := false })

/-! ### Axis units -/

/-- R8: CONFIGURE AXIS: refused with AXIS_STATE unless the axis is IDLE, with BAD_ARGUMENT for a bad record; else the whole
record is replaced and returned, and the count, the offset and the last step and index are kept. -/
def Obligations.ConfigureAxis : Prop :=
  ∀ (s : State) (p : Port) (ax : Axis) (m : Byte) (dir : Direction) (low high : Int) (pitch : BitVec 24)
    (tol : Fin 16) (aw : Bool) (rest : List Dispatch),
    s.Flying p (.configureAxis ax m dir low high pitch tol) aw rest →
    let u := s.axes.get ax
    exec (.configureAxis p ax m dir low high pitch tol) s = .next (
      if u.state ≠ .idle then s.refusing p aw rest .axisState
      else if high < low ∨ (1 ≤ pitch.toNat ∧ pitch.toNat ≤ 7) ∨ (m ≠ 1 ∧ m ≠ 2 ∧ m ≠ 4) then
        s.refusing p aw rest .badArgument
      else
        { s.answered p aw rest
            ⟨.ok, [finCode ax, m, dir.code] ++ signedBytes low ++ signedBytes high ++ le24 pitch ++ [finCode tol]⟩ with
          axes := s.axes.put ax
            { u with
              config := ⟨if m = 1 then .x1 else if m = 2 then .x2 else .x4, dir, low, high, pitch, tol⟩ } })

/-- R11: START, checked in order: AXIS_STATE unless IDLE, LINE_FAULT with the level present, OUT_OF_RANGE with the offset outside
the window; else FREE at count 0 with the offset kept, AXIS_STATE to the subscribers and a thaw notice. -/
def Obligations.Start : Prop :=
  ∀ (s : State) (p : Port) (ax : Axis) (aw : Bool) (rest : List Dispatch), s.Flying p (.start ax) aw rest →
    let u := s.axes.get ax
    exec (.start p ax) s = .next (
      if u.state ≠ .idle then s.refusing p aw rest .axisState
      else if u.lineFault = true then s.refusing p aw rest .lineFault
      else if u.offset < u.config.low ∨ u.config.high < u.offset then s.answered p aw rest ⟨.outOfRange, [2]⟩
      else
        { s.answered p aw rest ⟨.ok, signedBytes u.offset⟩ with
          axes := s.axes.put ax
            { u with
              state := .free, count := 0, lastStep := none, lastIndex := none
              outbox := u.outbox ++ [.thaw u.offset .start] }
          queues := s.told (.axisUnit ax) fun q =>
            if u.subscribers.get q then [axisEvent .axisState .start ax s.timebase .free u.offset] else [] })

/-- R12, R35: STOP: from every state but IDLE to IDLE, with ALIGN_ABORTED to the aligner before AXIS_STATE to the
subscribers, and a freeze notice; in IDLE it is answered OK and changes nothing. -/
def Obligations.Stop : Prop :=
  ∀ (s : State) (p : Port) (ax : Axis) (aw : Bool) (rest : List Dispatch), s.Flying p (.stop ax) aw rest →
    let u := s.axes.get ax
    let x := u.count + u.offset
    exec (.stop p ax) s = .next (
      if u.state = .idle then s.answered p aw rest ⟨.ok, []⟩
      else
        { s.answered p aw rest ⟨.ok, []⟩ with
          axes := s.axes.put ax { u with state := .idle, outbox := u.outbox ++ [.freeze x .stop] }
          queues := s.told (.axisUnit ax) fun q =>
            (match u.state with
              | .armed a =>
                if a.aligner = q then [axisEvent .alignAborted .stop ax s.timebase .idle x] else []
              | _ => []) ++
            (if u.subscribers.get q then [axisEvent .axisState .stop ax s.timebase .idle x] else []) })

/-- R13: RESUME, checked in order: AXIS_STATE unless LOST, LINE_FAULT, OUT_OF_RANGE outside the window or at a saturation
bound; else FREE with everything else kept, AXIS_STATE to the subscribers and a thaw notice with the position. -/
def Obligations.Resume : Prop :=
  ∀ (s : State) (p : Port) (ax : Axis) (aw : Bool) (rest : List Dispatch), s.Flying p (.resume ax) aw rest →
    let u := s.axes.get ax
    let x := u.count + u.offset
    exec (.resume p ax) s = .next (
      match u.state with
      | .lost _ =>
        if u.lineFault = true then s.refusing p aw rest .lineFault
        else if x < u.config.low ∨ u.config.high < x ∨ u.count ≤ -1073741824 ∨ 1073741823 ≤ u.count then
          s.answered p aw rest ⟨.outOfRange, [2]⟩
        else
          { s.answered p aw rest ⟨.ok, signedBytes x⟩ with
            axes := s.axes.put ax { u with state := .free, outbox := u.outbox ++ [.thaw x .resume] }
            queues := s.told (.axisUnit ax) fun q =>
              if u.subscribers.get q then [axisEvent .axisState .resume ax s.timebase .free x] else [] }
      | _ => s.refusing p aw rest .axisState)

/-- R14: SET OFFSET: BAD_ARGUMENT outside the offset range in every state; applied without a check in IDLE and LOST; checked
against the window in FREE and ALIGNED, with a rebase notice; AXIS_BUSY in ARMED. -/
def Obligations.SetOffset : Prop :=
  ∀ (s : State) (p : Port) (ax : Axis) (off : Int) (aw : Bool) (rest : List Dispatch),
    s.Flying p (.setOffset ax off) aw rest →
    let u := s.axes.get ax
    let x := u.count + off
    exec (.setOffset p ax off) s = .next (
      if off < -1073741824 ∨ 1073741823 < off then s.refusing p aw rest .badArgument
      else match u.state with
        | .armed a => s.answered p aw rest ⟨.axisBusy, [finCode a.aligner]⟩
        | .idle | .lost _ =>
          { s.answered p aw rest ⟨.ok, signedBytes x⟩ with axes := s.axes.put ax { u with offset := off } }
        | .free | .aligned =>
          if x < u.config.low ∨ u.config.high < x then s.answered p aw rest ⟨.outOfRange, [2]⟩
          else
            { s.answered p aw rest ⟨.ok, signedBytes x⟩ with
              axes := s.axes.put ax { u with offset := off, outbox := u.outbox ++ [.rebase x .offset] } })

/-- R24–R29: ALIGN: judged in the order of R25; accepted, it makes or replaces the alignment record, AXIS_STATE going to the
subscribers unless the axis was ARMED, and from LOST a thaw notice with cause RESUME to the zone controller. (The code of the response's 'replaced' byte: log 22,
DEDUCED.) -/
def Obligations.Align : Prop :=
  ∀ (s : State) (p : Port) (ax : Axis) (preset : Int) (q : Qualifier) (d : DirReq) (aw : Bool) (rest : List Dispatch),
    s.Flying p (.align ax preset q d) aw rest →
    let u := s.axes.get ax
    let x := u.count + u.offset
    let badPreset := preset < u.config.low ∨ u.config.high < preset ∨
      preset - u.offset < -1073741823 ∨ 1073741822 < preset - u.offset
    let armed : AxisUnit := { u with state := .armed ⟨p, preset, q, d⟩ }
    let ok (replaced : Byte) : State :=
      s.answered p aw rest
        ⟨.ok, [2] ++ signedBytes x ++ signedBytes preset ++ [q.code, d.code, finCode p, replaced]⟩
    let told := s.told (.axisUnit ax) fun r =>
      if u.subscribers.get r then [axisEvent .axisState .align ax s.timebase .armed x] else []
    exec (.align p ax preset q d) s = .next (
      match u.state with
      | .idle => s.refusing p aw rest .axisState
      | .armed a =>
        if a.aligner ≠ p then s.answered p aw rest ⟨.axisBusy, [finCode a.aligner]⟩
        else if badPreset then s.answered p aw rest ⟨.outOfRange, [1]⟩
        else { ok 1 with axes := s.axes.put ax armed }
      | .free | .aligned =>
        if badPreset then s.answered p aw rest ⟨.outOfRange, [1]⟩
        else { ok 0 with axes := s.axes.put ax armed, queues := told }
      | .lost _ =>
        if badPreset then s.answered p aw rest ⟨.outOfRange, [1]⟩
        else if u.lineFault = true then s.refusing p aw rest .lineFault
        else if x < u.config.low ∨ u.config.high < x ∨ u.count ≤ -1073741824 ∨ 1073741823 ≤ u.count then
          s.answered p aw rest ⟨.outOfRange, [2]⟩
        else
          { ok 0 with
            axes := s.axes.put ax { armed with outbox := u.outbox ++ [.thaw x .resume] }
            queues := told })

/-- R36: CANCEL ALIGN: of the aligner, the record is removed and the axis FREE with everything else kept and AXIS_STATE to the
subscribers; NOT_ALIGNER from another port; AXIS_STATE unless ARMED. -/
def Obligations.CancelAlign : Prop :=
  ∀ (s : State) (p : Port) (ax : Axis) (aw : Bool) (rest : List Dispatch), s.Flying p (.cancelAlign ax) aw rest →
    let u := s.axes.get ax
    let x := u.count + u.offset
    exec (.cancelAlign p ax) s = .next (
      match u.state with
      | .armed a =>
        if a.aligner ≠ p then s.refusing p aw rest .notAligner
        else
          { s.answered p aw rest ⟨.ok, signedBytes x⟩ with
            axes := s.axes.put ax { u with state := .free }
            queues := s.told (.axisUnit ax) fun q =>
              if u.subscribers.get q then [axisEvent .axisState .cancel ax s.timebase .free x] else [] }
      | _ => s.refusing p aw rest .axisState)

/-- R1, R2, R5, R7, R10, R21: a step. The phase is tracked in every state; outside IDLE the step sets the last step
direction and, if the multiplier counts it, the count, saturated at its bounds; a live axis whose count changed offers a
sample, which takes the place of an undelivered one that no notice follows, and goes to LOST(RANGE) when its position is
outside the window or its count at a bound. -/
def Obligations.EncoderStep : Prop :=
  ∀ (s : State) (ax : Axis) (raw : StepDir),
    let u := s.axes.get ax
    let phase : Phase := match raw, u.phase with
      | .positive, .lowLow => .highLow
      | .positive, .highLow => .highHigh
      | .positive, .highHigh => .lowHigh
      | .positive, .lowHigh => .lowLow
      | .negative, .lowLow => .lowHigh
      | .negative, .lowHigh => .highHigh
      | .negative, .highHigh => .highLow
      | .negative, .highLow => .lowLow
    let dir : StepDir := match u.config.direction, raw with
      | .normal, d => d
      | .inverted, .positive => .negative
      | .inverted, .negative => .positive
    let counts : Bool := match u.config.multiplier with
      | .x4 => true
      | .x2 => decide (u.phase.levelA ≠ phase.levelA)
      | .x1 => decide (u.phase.levelB = false ∧ phase.levelB = false)
    let count : Int :=
      if counts = false then u.count
      else match dir with
        | .positive => min (u.count + 1) 1073741823
        | .negative => max (u.count - 1) (-1073741824)
    let x := count + u.offset
    let offered : AxisMsg := .sample x (u.state = .aligned)
    let outbox : List AxisMsg :=
      if count = u.count then u.outbox
      else match u.outbox.getLast? with
        | some (.sample _ _) => u.outbox.dropLast ++ [offered]
        | _ => u.outbox ++ [offered]
    let broken := x < u.config.low ∨ u.config.high < x ∨ count ≤ -1073741824 ∨ 1073741823 ≤ count
    let stepped : AxisUnit := { u with phase := phase, lastStep := some dir, count := count }
    exec (.encoderStep ax raw) s = .next (
      if u.state = .idle then { s with axes := s.axes.put ax { u with phase := phase } }
      else if u.state.isLive = false then { s with axes := s.axes.put ax stepped }
      else if counts = false ∨ ¬ broken then { s with axes := s.axes.put ax { stepped with outbox := outbox } }
      else
        { s with
          axes := s.axes.put ax
            { stepped with state := .lost .range, outbox := outbox ++ [.freeze x (.lost .range)] }
          queues := s.told (.axisUnit ax) fun q =>
            (match u.state with
              | .armed a =>
                if a.aligner = q then [axisEvent .alignAborted .range ax s.timebase (.lost .range) x] else []
              | _ => []) ++
            (if u.subscribers.get q then [axisEvent .axisState .range ax s.timebase (.lost .range) x] else []) })

/-- R3, R10, R35: a signal fault (a skipped state, or a rise of the line-fault level) takes a live axis to LOST(SIGNAL) and
changes neither the state nor the cause in IDLE and LOST; the count is left as it is; a fall of the level changes only the
level. -/
def Obligations.SignalFault : Prop :=
  ∀ (s : State) (ax : Axis),
    let u := s.axes.get ax
    let x := u.count + u.offset
    let faulted (v : AxisUnit) : State :=
      if u.state.isLive then
        { s with
          axes := s.axes.put ax { v with state := .lost .signal, outbox := u.outbox ++ [.freeze x (.lost .signal)] }
          queues := s.told (.axisUnit ax) fun q =>
            (match u.state with
              | .armed a =>
                if a.aligner = q then [axisEvent .alignAborted .signal ax s.timebase (.lost .signal) x] else []
              | _ => []) ++
            (if u.subscribers.get q then [axisEvent .axisState .signal ax s.timebase (.lost .signal) x] else []) }
      else { s with axes := s.axes.put ax v }
    exec (.skippedState ax) s = .next (faulted
      { u with
        phase := match u.phase with
          | .lowLow => .highHigh
          | .highHigh => .lowLow
          | .highLow => .lowHigh
          | .lowHigh => .highLow }) ∧
    (u.lineFault = false → exec (.lineFaultRise ax) s = .next (faulted { u with lineFault := true })) ∧
    exec (.lineFaultFall ax) s = .next { s with axes := s.axes.put ax { u with lineFault := false } }

/-- R4, R30–R34, R39, R40: an index pulse: ignored in IDLE; recorded in FREE and LOST; in ARMED it completes the alignment
when qualifier and direction are met, else it is recorded; in ALIGNED it is accepted when it fits the pitch, else it takes
the axis to LOST(SPACING) with the last index count kept. (That an ALIGNED axis without a last index count, which no run
reaches, only records the pulse is the model's choice, log 13.) -/
def Obligations.IndexPulse : Prop :=
  ∀ (s : State) (ax : Axis),
    let u := s.axes.get ax
    let x := u.count + u.offset
    let recorded : State := { s with axes := s.axes.put ax { u with lastIndex := some u.count } }
    exec (.indexPulse ax) s = .next (
      match u.state with
      | .idle => s
      | .free | .lost _ => recorded
      | .armed a =>
        let qualified : Bool := match a.qualifier with
          | .none => true
          | .trigger t high => decide ((s.triggers.get t).level = high)
        let arrived : Bool := match a.direction with
          | .any => true
          | .positive => decide (u.lastStep = some .positive)
          | .negative => decide (u.lastStep = some .negative)
        if qualified = true ∧ arrived = true then
          { s with
            axes := s.axes.put ax
              { u with
                state := .aligned, count := a.preset - u.offset, lastIndex := some (a.preset - u.offset)
                outbox := u.outbox ++ [.rebase a.preset .align] }
            queues := s.told (.axisUnit ax) fun q =>
              (if a.aligner = q then [axisEvent .alignDone .align ax s.timebase .aligned a.preset] else []) ++
              (if u.subscribers.get q then [axisEvent .axisState .align ax s.timebase .aligned a.preset] else []) }
        else recorded
      | .aligned =>
        match u.lastIndex with
        | none => recorded
        | some last =>
          let d : Int := |u.count - last|
          if u.config.pitch = 0 ∨ d ≤ u.config.tolerance.val ∨
              |d - u.config.pitch.toNat| ≤ u.config.tolerance.val then recorded
          else
            { s with
              axes := s.axes.put ax { u with state := .lost .spacing, outbox := u.outbox ++ [.freeze x (.lost .spacing)] }
              queues := s.told (.axisUnit ax) fun q =>
                if u.subscribers.get q then [axisEvent .axisState .spacing ax s.timebase (.lost .spacing) x] else [] })

/-- R19, R65, R66: subscriptions. SUBSCRIBE AXIS adds the port, UNSUBSCRIBE AXIS removes it or is refused; SUBSCRIBE ZONE
adds the port's entry or replaces its filter, refused on an EMPTY slot or another generation; UNSUBSCRIBE ZONE removes the
entry or is refused. -/
def Obligations.Subscriptions : Prop :=
  ∀ (s : State) (p : Port) (aw : Bool) (rest : List Dispatch),
    (∀ ax, s.Flying p (.subscribeAxis ax) aw rest →
      let u := s.axes.get ax
      exec (.subscribeAxis p ax) s = .next
        { s.answered p aw rest ⟨.ok, [u.state.tag.code, u.state.tag.causeCode] ++ signedBytes (u.count + u.offset)⟩ with
          axes := s.axes.put ax { u with subscribers := u.subscribers.put p true } }) ∧
    (∀ ax, s.Flying p (.unsubscribeAxis ax) aw rest →
      let u := s.axes.get ax
      exec (.unsubscribeAxis p ax) s = .next (
        if u.subscribers.get p = false then s.refusing p aw rest .notSubscribed
        else
          { s.answered p aw rest ⟨.ok, []⟩ with
            axes := s.axes.put ax { u with subscribers := u.subscribers.put p false } })) ∧
    (∀ z g f, s.Flying p (.subscribeZone z g f) aw rest →
      let sl := s.zones.get z
      exec (.subscribeZone p z g f) s = .next (
        match sl.zone with
        | none => s.refusing p aw rest .noSuchZone
        | some zn =>
          if g ≠ sl.generation then s.answered p aw rest ⟨.generationMismatch, le16 sl.generation⟩
          else
            { s.answered p aw rest ⟨.ok, [zn.membership.code, boolCode zn.frozen] ++ le16 sl.generation⟩ with
              zones := s.zones.put z
                { sl with zone := some { zn with subscribers := zn.subscribers.put p (some f) } } })) ∧
    (∀ z, s.Flying p (.unsubscribeZone z) aw rest →
      let sl := s.zones.get z
      exec (.unsubscribeZone p z) s = .next (
        match sl.zone with
        | none => s.refusing p aw rest .noSuchZone
        | some zn =>
          if zn.subscribers.get p = none then s.refusing p aw rest .notSubscribed
          else
            { s.answered p aw rest ⟨.ok, []⟩ with
              zones := s.zones.put z { sl with zone := some { zn with subscribers := zn.subscribers.put p none } } }))


/-! ### The zone table -/

/-- R57, R58, R59, R67, R70: a sample. Every live zone of the axis is judged by its membership, the interval and the guarded
interval (saturated at the position range); the events go, in ascending zone id, to every subscriber (a crossing passes
both filters), the capture claims to the capture unit; the last evaluated position becomes the sample's, and the outputs
that hold a zone whose membership changed are recomputed. -/
def Obligations.Sample : Prop :=
  ∀ (s : State) (ax : Axis) (x : Int) (aligned : Bool) (rest : List AxisMsg),
    (s.axes.get ax).outbox = .sample x aligned :: rest →
    let prev := (s.views.get ax).last
    let live (z : ZoneId) : Option Zone := (s.zones.get z).zone.filter fun zn => zn.axis = ax ∧ zn.frozen = false
    let judge (zn : Zone) : Membership × Option Crossing :=
      let guarded : Prop := max (zn.lower - zn.guard.toNat) (-2147483648) ≤ x ∧ x ≤ min (zn.upper + zn.guard.toNat) 2147483646
      if zn.membership = .inside then (if guarded then (.inside, none) else (.outside, some .exit))
      else if zn.lower ≤ x ∧ x ≤ zn.upper then (.inside, some .enter)
      else if (prev < zn.lower ∧ zn.upper < x) ∨ (zn.upper < prev ∧ x < zn.lower) then
        (if guarded then (.inside, some .enter) else (.outside, some .pass))
      else (.outside, none)
    let zones : Table 32 Slot := s.zones.mapIdx fun z sl =>
      (live z).elim sl fun zn => { sl with zone := some { zn with membership := (judge zn).1 } }
    let outs : Table 8 Output := s.outputs.mapIdx fun _ out =>
      if (members out.map).any (fun z => (live z).any fun zn => (judge zn).1 ≠ zn.membership) then
        { out with requested := requestedValue zones out }
      else out
    exec (.sample ax) s = .next
      { s with
        axes := s.axes.put ax { s.axes.get ax with outbox := rest }
        views := s.views.put ax { s.views.get ax with last := x }
        zones := zones
        outputs := outs
        drivers := s.driven outs
        queues := s.told .zoneController fun q => (List.finRange 32).flatMap fun z =>
          (live z).elim [] fun zn => (judge zn).2.elim [] fun c =>
            if (zn.subscribers.get q).isSome then
              [zoneEvent c.kind .crossing z (s.zones.get z).generation (judge zn).1 x s.timebase]
            else []
        capture :=
          { s.capture with
            waiting := s.capture.waiting ++ (List.finRange 32).flatMap fun z =>
              (live z).elim [] fun zn => (judge zn).2.elim [] fun c =>
                if zn.capture = .both ∨ (zn.capture = .enter ∧ c ≠ .exit) ∨ (zn.capture = .exit ∧ c ≠ .enter) then
                  [⟨z, (s.zones.get z).generation, c, ax, x, aligned, s.timebase⟩]
                else [] } }

/-- R60–R63, R67, R69: the notices. A rebase judges the live zones of the axis afresh, but for
one to the last evaluated position, which is taken and changes no membership (R61 against R60: log 20); a freeze freezes every zone of the axis
with its membership kept and leaves the last evaluated position; a thaw makes every zone of the axis live and judges it
afresh. ZONE_FROZEN and ZONE_THAWED go to every subscriber; ZONE_ENTER and ZONE_EXIT, when the membership changed, to those
with filter ALL, since their cause is not CROSSING. -/
def Obligations.Notices : Prop :=
  ∀ (s : State) (ax : Axis) (x : Int) (rest : List AxisMsg),
    let onAxis (z : ZoneId) : Option Zone := (s.zones.get z).zone.filter fun zn => zn.axis = ax
    let afresh (zn : Zone) : Membership := if zn.lower ≤ x ∧ x ≤ zn.upper then .inside else .outside
    let turned (cause : Cause) (z : ZoneId) (zn : Zone) (q : Port) : List Event :=
      if afresh zn ≠ zn.membership ∧ zn.subscribers.get q = some .all then
        [zoneEvent (if afresh zn = .inside then .zoneEnter else .zoneExit) cause z (s.zones.get z).generation (afresh zn) x
          s.timebase]
      else []
    let after (change : Zone → Zone) : Table 32 Slot := s.zones.mapIdx fun z sl =>
      (onAxis z).elim sl fun zn => { sl with zone := some (change zn) }
    let claimed (view : View) (zones : Table 32 Slot) (touched : Zone → Bool) (es : ZoneId → Zone → Port → List Event) :
        State :=
      let outs : Table 8 Output := s.outputs.mapIdx fun _ out =>
        if (members out.map).any (fun z => (onAxis z).any touched) then { out with requested := requestedValue zones out }
        else out
      { s with
        axes := s.axes.put ax { s.axes.get ax with outbox := rest }
        views := s.views.put ax view
        zones := zones
        outputs := outs
        drivers := s.driven outs
        queues := s.told .zoneController fun q => (List.finRange 32).flatMap fun z =>
          (onAxis z).elim [] fun zn => es z zn q }
    (∀ c, (s.axes.get ax).outbox = .rebase x c :: rest → exec (.rebaseNotice ax) s = .next
      (claimed { s.views.get ax with last := x }
        (after fun zn => { zn with membership := if zn.frozen ∨ x = (s.views.get ax).last then zn.membership else afresh zn })
        (fun zn => !zn.frozen && x ≠ (s.views.get ax).last && afresh zn ≠ zn.membership)
        fun z zn q => if zn.frozen ∨ x = (s.views.get ax).last then [] else turned c.cause z zn q)) ∧
    (∀ c, (s.axes.get ax).outbox = .freeze x c :: rest → exec (.freezeNotice ax) s = .next
      (claimed { s.views.get ax with liveness := .frozen c } (after fun zn => { zn with frozen := true }) (fun _ => true)
        fun z zn q =>
          if (zn.subscribers.get q).isSome then
            [zoneEvent .zoneFrozen (freezeCauseOf c) z (s.zones.get z).generation zn.membership x s.timebase]
          else [])) ∧
    (∀ c, (s.axes.get ax).outbox = .thaw x c :: rest → exec (.thawNotice ax) s = .next
      (claimed ⟨x, .live⟩ (after fun zn => { zn with frozen := false, membership := afresh zn }) (fun _ => true)
        fun z zn q =>
          (if (zn.subscribers.get q).isSome then
            [zoneEvent .zoneThawed c.cause z (s.zones.get z).generation (afresh zn) x s.timebase]
          else []) ++ turned c.cause z zn q))

/-- R46, R47: DEFINE ZONE: judged in order; accepted, the lowest EMPTY slot takes the zone with the slot's generation one
higher; a live view judges it afresh, a frozen one leaves it frozen and OUTSIDE; no event, no claim, no output changes. -/
def Obligations.DefineZone : Prop :=
  ∀ (s : State) (p : Port) (ax : Axis) (lower upper : Int) (guard : BitVec 16) (capture : CaptureFlags)
    (choice : Option Filter) (aw : Bool) (rest : List Dispatch),
    s.Flying p (.defineZone ax lower upper guard capture choice) aw rest →
    let run := exec (.defineZone p ax lower upper guard capture choice) s
    let v := s.views.get ax
    let own : Nat := ((List.finRange 32).filter fun z => ((s.zones.get z).zone.map Zone.author) = some p).length
    ((∀ z, (s.zones.get z).zone ≠ none) → run = .next (s.refusing p aw rest .tableFull)) ∧
    ∀ z, (s.zones.get z).zone = none → (∀ y < z, (s.zones.get y).zone ≠ none) →
      run = .next (
        if 16 ≤ own then s.refusing p aw rest .authorLimit
        else if upper < lower ∨ 2147483646 < upper then s.refusing p aw rest .badArgument
        else
          let g := (s.zones.get z).generation + 1
          let m : Membership := if v.liveness = .live ∧ lower ≤ v.last ∧ v.last ≤ upper then .inside else .outside
          let frozen : Bool := decide (v.liveness ≠ .live)
          { s.answered p aw rest ⟨.ok, [finCode z] ++ le16 g ++ [m.code, boolCode frozen]⟩ with
            zones := s.zones.put z
              { generation := g
                zone := some
                  { axis := ax, lower := lower, upper := upper, guard := guard, capture := capture, author := p,
                    membership := m, frozen := frozen, subscribers := (Table.all 4 none).put p choice } } })

/-- R48–R50: MODIFY ZONE: judged in order, the zone in use when an output with another holder maps it (the first such output
and its holder are named); accepted, the record takes the new values with its generation one higher, a live zone is judged
afresh; ZONE_CHANGED goes to every subscriber but the author, then ENTER or EXIT with cause EDIT, when the membership
changed, to those with filter ALL; the outputs that map a zone whose membership changed are recomputed. -/
def Obligations.ModifyZone : Prop :=
  ∀ (s : State) (p : Port) (z : ZoneId) (generation : BitVec 16) (lower upper : Int) (guard : BitVec 16)
    (capture : CaptureFlags) (aw : Bool) (rest : List Dispatch),
    s.Flying p (.modifyZone z generation lower upper guard capture) aw rest →
    let sl := s.zones.get z
    let run := exec (.modifyZone p z generation lower upper guard capture) s
    let inUse (o : Line) : Bool :=
      (s.outputs.get o).map.getLsbD z.val && (s.outputs.get o).lease.any fun l => l.holder ≠ p
    (sl.zone = none → run = .next (s.refusing p aw rest .noSuchZone)) ∧
    ∀ zn, sl.zone = some zn →
      let x := (s.views.get zn.axis).last
      let m : Membership :=
        if zn.frozen then zn.membership else if lower ≤ x ∧ x ≤ upper then .inside else .outside
      let g := sl.generation + 1
      let zones := s.zones.put z
        { generation := g
          zone := some { zn with lower := lower, upper := upper, guard := guard, capture := capture, membership := m } }
      let outs : Table 8 Output := s.outputs.mapIdx fun _ out =>
        if m ≠ zn.membership ∧ out.map.getLsbD z.val then { out with requested := requestedValue zones out } else out
      run = .next (
        if zn.author ≠ p then s.refusing p aw rest .notAuthor
        else if generation ≠ sl.generation then s.answered p aw rest ⟨.generationMismatch, le16 sl.generation⟩
        else if upper < lower ∨ 2147483646 < upper then s.refusing p aw rest .badArgument
        else match (List.finRange 8).find? inUse with
          | some o =>
            s.answered p aw rest ⟨.zoneInUse, [finCode o, optPortCode ((s.outputs.get o).lease.map Lease.holder)]⟩
          | none =>
            { s.answered p aw rest ⟨.ok, le16 g ++ [m.code, boolCode zn.frozen]⟩ with
              zones := zones
              outputs := outs
              drivers := s.driven outs
              queues := s.told .zoneController fun q =>
                (if (zn.subscribers.get q).isSome ∧ q ≠ zn.author then
                  [zoneEvent .zoneChanged .edit z g m x s.timebase] else []) ++
                (if m ≠ zn.membership ∧ zn.subscribers.get q = some .all then
                  [zoneEvent (if m = .inside then .zoneEnter else .zoneExit) .edit z g m x s.timebase] else []) })

/-- R51: DELETE ZONE: judged in order; accepted, ZONE_REMOVED goes to every subscriber but the requester, the zone leaves
every map, the outputs that held it are recomputed, and the slot is EMPTY with its generation kept. -/
def Obligations.DeleteZone : Prop :=
  ∀ (s : State) (p : Port) (z : ZoneId) (generation : BitVec 16) (aw : Bool) (rest : List Dispatch),
    s.Flying p (.deleteZone z generation) aw rest →
    let sl := s.zones.get z
    let run := exec (.deleteZone p z generation) s
    let inUse (o : Line) : Bool :=
      (s.outputs.get o).map.getLsbD z.val && (s.outputs.get o).lease.any fun l => l.holder ≠ p
    let zones := s.zones.put z { generation := sl.generation, zone := none }
    let outs : Table 8 Output := s.outputs.mapIdx fun _ out =>
      if out.map.getLsbD z.val then
        let out' : Output := { out with map := out.map &&& ~~~ BitVec.twoPow 32 z.val }
        { out' with requested := requestedValue zones out' }
      else out
    (sl.zone = none → run = .next (s.refusing p aw rest .noSuchZone)) ∧
    ∀ zn, sl.zone = some zn →
      run = .next (
        if zn.author ≠ p then s.refusing p aw rest .notAuthor
        else if generation ≠ sl.generation then s.answered p aw rest ⟨.generationMismatch, le16 sl.generation⟩
        else match (List.finRange 8).find? inUse with
          | some o =>
            s.answered p aw rest ⟨.zoneInUse, [finCode o, optPortCode ((s.outputs.get o).lease.map Lease.holder)]⟩
          | none =>
            { s.answered p aw rest ⟨.ok, le16 sl.generation⟩ with
              zones := zones
              outputs := outs
              drivers := s.driven outs
              queues := s.told .zoneController fun q =>
                if (zn.subscribers.get q).isSome ∧ q ≠ p then
                  [zoneEvent .zoneRemoved .edit z sl.generation zn.membership (s.views.get zn.axis).last s.timebase]
                else [] })

/-- R17, R53, R54, R89, R104: the requests that read change nothing, and answer what the tables hold: READ AXES the four axes
and the timebase, READ ZONE the record (or NO_SUCH_ZONE with the EMPTY slot's generation), LIST ZONES at most 16 defined
zones from an id on and the next id (0xFF when there is none), READ OUTPUTS the eight lines, OHOLD and the timebase, FETCH
EVENTS the oldest records, at most as many as asked. (That the bits R165 does not name in the presence byte of READ AXES and
in the last byte of a LIST ZONES entry are 0 is the model's choice, log 23.) -/
def Obligations.ReadRequests : Prop :=
  ∀ (s : State) (p : Port) (aw : Bool) (rest : List Dispatch),
    (s.Flying p .readAxes aw rest → exec (.readAxes p) s = .next (s.answered p aw rest
      ⟨.ok, ((List.finRange 4).flatMap fun ax =>
        let u := s.axes.get ax
        [u.state.tag.code, u.state.tag.causeCode] ++ signedBytes (u.count + u.offset) ++ signedBytes u.count ++
          signedBytes u.offset ++ signedBytes (u.lastIndex.getD 0) ++
          [BitVec.ofNat 8 ((if u.lastIndex.isSome then 1 else 0) + (if u.lineFault then 2 else 0)),
            match u.state with
            | .armed a => finCode a.aligner
            | _ => 0xFF]) ++ le32 s.timebase⟩)) ∧
    (∀ z, s.Flying p (.readZone z) aw rest → exec (.readZone p z) s = .next (
      match (s.zones.get z).zone with
      | none => s.answered p aw rest ⟨.noSuchZone, le16 (s.zones.get z).generation⟩
      | some zn =>
        let v := s.views.get zn.axis
        let entry (q : Port) : List Byte := (zn.subscribers.get q).elim [] fun f => [finCode q, f.code]
        s.answered p aw rest ⟨.ok,
          [finCode z] ++ le16 (s.zones.get z).generation ++ [finCode zn.axis] ++ signedBytes zn.lower ++
            signedBytes zn.upper ++ le16 zn.guard ++
            [zn.capture.code, finCode zn.author, zn.membership.code, boolCode zn.frozen,
              if zn.frozen then v.liveness.code else 0] ++
            signedBytes v.last ++
            [BitVec.ofNat 8 ((List.finRange 4).filter fun q => (zn.subscribers.get q).isSome).length] ++
            entry 0 ++ entry 1 ++ entry 2 ++ entry 3⟩)) ∧
    (∀ start, s.Flying p (.listZones start) aw rest → exec (.listZones p start) s = .next (
      let ids := (List.finRange 32).filter fun z => (s.zones.get z).zone.isSome ∧ start ≤ z
      let shown := ids.take 16
      s.answered p aw rest ⟨.ok,
        [BitVec.ofNat 8 shown.length, ((ids.drop 16).head?.map finCode).getD 0xFF] ++ shown.flatMap fun z =>
          (s.zones.get z).zone.elim [] fun zn =>
            [finCode z, finCode zn.axis, finCode zn.author] ++ le16 (s.zones.get z).generation ++
              [(0 : BitVec 6) ++ BitVec.ofBool zn.frozen ++ BitVec.ofBool (zn.membership = .inside)]⟩)) ∧
    (s.Flying p .readOutputs aw rest → exec (.readOutputs p) s = .next (s.answered p aw rest
      ⟨.ok, ((List.finRange 8).flatMap fun o =>
        let out := s.outputs.get o
        [boolCode (s.drivers.get o).pin, boolCode out.requested, out.force.code, out.policy.code, boolCode out.hold,
            (out.lease.map fun l => finCode l.holder).getD 0xFF] ++
          durationBytes ((out.lease.map Lease.duration).getD 0) ++ durationBytes ((out.lease.map Lease.timer).getD 0) ++
          [BitVec.ofNat 8 out.waiters.length] ++ le32 out.map) ++ [boolCode s.ohold] ++ le32 s.timebase⟩)) ∧
    (∀ n, s.Flying p (.fetchEvents n) aw rest → exec (.fetchEvents p n) s = .next (
      let held := (s.queues.get p).records
      if n = 0 ∨ 8 < n.toNat then s.refusing p aw rest .badArgument
      else s.answered p aw rest
        ⟨.ok, [BitVec.ofNat 8 held.length, BitVec.ofNat 8 (min n.toNat held.length)] ++
          (held.take n.toNat).flatMap EventRecord.bytes⟩))


/-! ### Output lines and leases -/

/-- R78: CLAIM OUTPUT: judged in order; an output without a holder is granted at once, another queues the requester at the
tail when it waits; no value changes and no event is sent. -/
def Obligations.ClaimOutput : Prop :=
  ∀ (s : State) (p : Port) (o : Line) (duration : BitVec 16) (wait : Bool) (aw : Bool) (rest : List Dispatch),
    s.Flying p (.claimOutput o duration wait) aw rest →
    let out := s.outputs.get o
    let d := duration.toNat
    let place : Nat := (out.waiters.takeWhile fun w => w.port ≠ p).length
    exec (.claimOutput p o duration wait) s = .next (
      if d < 10 ∨ 10000 < d then s.refusing p aw rest .badArgument
      else match out.lease with
        | none =>
          { s.answered p aw rest ⟨.ok, durationBytes d⟩ with
            outputs := s.outputs.put o { out with lease := some ⟨p, d, d + 1⟩ } }
        | some l =>
          if l.holder = p then s.refusing p aw rest .alreadyHolder
          else if wait = false then s.answered p aw rest ⟨.held, [finCode l.holder]⟩
          else if p ∈ out.waiters.map Waiter.port then
            s.answered p aw rest ⟨.alreadyWaiting, [BitVec.ofNat 8 (place + 1)]⟩
          else
            { s.answered p aw rest ⟨.queued, [BitVec.ofNat 8 (out.waiters.length + 1)]⟩ with
              outputs := s.outputs.put o { out with waiters := out.waiters ++ [⟨p, d⟩] } })

/-- R80–R82, R84, R90: RENEW LEASE sets the timer afresh (a field of 0 keeps the duration, R165); RELEASE OUTPUT ends the
lease, the head of the wait queue becoming holder with LEASE_GRANTED, cause CANCEL, the force NONE and the requested value
recomputed; CANCEL WAIT takes the requester out of the queue. -/
def Obligations.RenewReleaseCancelWait : Prop :=
  ∀ (s : State) (p : Port) (o : Line) (aw : Bool) (rest : List Dispatch),
    let out := s.outputs.get o
    let holds : Bool := out.lease.any fun l => l.holder = p
    (∀ duration, s.Flying p (.renewLease o duration) aw rest → exec (.renewLease p o duration) s = .next (
      match out.lease with
      | none => s.refusing p aw rest .notHolder
      | some l =>
        let d : Nat := if duration = 0 then l.duration else duration.toNat
        if l.holder ≠ p then s.refusing p aw rest .notHolder
        else if duration ≠ 0 ∧ (duration.toNat < 10 ∨ 10000 < duration.toNat) then s.refusing p aw rest .badArgument
        else
          { s.answered p aw rest ⟨.ok, durationBytes d⟩ with
            outputs := s.outputs.put o { out with lease := some ⟨p, d, d + 1⟩ } })) ∧
    (s.Flying p (.releaseOutput o) aw rest → exec (.releaseOutput p o) s = .next (
      if holds = false then s.refusing p aw rest .notHolder
      else
        let ended : Output :=
          { out with
            lease := out.waiters.head?.map fun w => ⟨w.port, w.duration, w.duration + 1⟩
            waiters := out.waiters.tail
            force := .none }
        let outs := s.outputs.put o { ended with requested := requestedValue s.zones ended }
        { s.answered p aw rest ⟨.ok, [(out.waiters.head?.map fun w => finCode w.port).getD 0xFF]⟩ with
          outputs := outs
          drivers := s.driven outs
          queues := s.told .zoneController fun q => out.waiters.head?.elim [] fun w =>
            if w.port = q then [leaseEvent .leaseGranted .cancel o w.duration s.timebase] else [] })) ∧
    (s.Flying p (.cancelWait o) aw rest → exec (.cancelWait p o) s = .next (
      if p ∉ out.waiters.map Waiter.port then s.refusing p aw rest .notWaiting
      else
        { s.answered p aw rest ⟨.ok, []⟩ with
          outputs := s.outputs.put o { out with waiters := out.waiters.filter fun w => w.port ≠ p } }))

/-- R73, R74, R86–R88: MAP, FORCE and CONFIGURE OUTPUT are the holder's: the record is changed, its requested value
recomputed (the force's, or ON when a zone of the map is INSIDE and live, or frozen under HOLD), the driver handed what
changed, the answer the value after the request. -/
def Obligations.HolderRequests : Prop :=
  ∀ (s : State) (p : Port) (o : Line) (aw : Bool) (rest : List Dispatch),
    let out := s.outputs.get o
    let holds : Bool := out.lease.any fun l => l.holder = p
    let value (out : Output) : Bool := match out.force with
      | .on => true
      | .off => false
      | .none => (List.finRange 32).any fun z => out.map.getLsbD z.val && (s.zones.get z).zone.any fun zn =>
          decide (zn.membership = .inside ∧ (zn.frozen = false ∨ out.policy = .hold))
    let changed (out : Output) : State :=
      let outs := s.outputs.put o { out with requested := value out }
      { s.answered p aw rest ⟨.ok, [boolCode (value out)]⟩ with outputs := outs, drivers := s.driven outs }
    (∀ set, s.Flying p (.mapOutput o set) aw rest → exec (.mapOutput p o set) s = .next (
      if holds = false then s.refusing p aw rest .notHolder
      else match (List.finRange 32).find? fun z => set.getLsbD z.val && (s.zones.get z).zone.isNone with
        | some z => s.answered p aw rest ⟨.noSuchZone, [finCode z]⟩
        | none => changed { out with map := set })) ∧
    (∀ f, s.Flying p (.forceOutput o f) aw rest → exec (.forceOutput p o f) s = .next (
      if holds = false then s.refusing p aw rest .notHolder else changed { out with force := f })) ∧
    (∀ policy hold, s.Flying p (.configureOutput o policy hold) aw rest → exec (.configureOutput p o policy hold) s = .next (
      if holds = false then s.refusing p aw rest .notHolder else changed { out with policy := policy, hold := hold }))

/-- R75–R77, R82, R83, R90: a lease tick takes one from every present timer (one at 0 stays), a timer that reaches 0
presenting its expiry; an expiry ends a lease whose timer stands at 0 (LEASE_LOST to the holder, then LEASE_GRANTED to the
head of the queue) and is discarded in any other case; a change of OHOLD reaches the pins alone. That a tick command runs
the timebase on to the next tick instant is the model's choice (log 2). -/
def Obligations.LeaseTicksAndHold : Prop :=
  ∀ s : State,
    (s.inReset = false → exec .leaseTick s = .next
      { s with
        timebase := s.timebase + BitVec.ofNat 32 (1000 - s.sinceTick)
        sinceTick := 0
        starting := s.starting && decide (s.timebase.toNat + (1000 - s.sinceTick) < 3000)
        outputs := s.outputs.mapIdx fun _ out =>
          { out with
            lease := out.lease.map fun l => { l with timer := l.timer - 1 }
            expiryClaim := out.expiryClaim || out.lease.any fun l => l.timer = 1 } }) ∧
    (∀ o, (s.outputs.get o).expiryClaim = true →
      let out : Output := { s.outputs.get o with expiryClaim := false }
      exec (.leaseExpiry o) s = .next (
        match out.lease with
        | none => { s with outputs := s.outputs.put o out }
        | some l =>
          if l.timer ≠ 0 then { s with outputs := s.outputs.put o out }
          else
            let ended : Output :=
              { out with
                lease := out.waiters.head?.map fun w => ⟨w.port, w.duration, w.duration + 1⟩
                waiters := out.waiters.tail
                force := .none }
            let outs := s.outputs.put o { ended with requested := requestedValue s.zones ended }
            { s with
              outputs := outs
              drivers := s.driven outs
              queues := s.told .zoneController fun q =>
                (if l.holder = q then [leaseEvent .leaseLost .expiry o l.duration s.timebase] else []) ++
                out.waiters.head?.elim [] fun w =>
                  if w.port = q then [leaseEvent .leaseGranted .expiry o w.duration s.timebase] else [] })) ∧
    (∀ active, exec (.oholdChange active) s = .next
      { s with
        ohold := active
        drivers := s.drivers.mapIdx fun _ d => { d with pin := if active && d.hold then false else d.requested } })


/-! ### Event queues -/

/-- R99–R102, R112: an append. The queue takes the oldest record of the producer; a CLOSED queue discards it; an OPEN one
that holds fewer than 31 appends it with the next number, sealing a marker at the tail; from 31 on, a marker at the tail
counts it (up to 65,535), else a fresh OVERFLOW marker takes its place. ATTNn follows. -/
def Obligations.EventAppend : Prop :=
  ∀ (s : State) (p : Port) (src : Producer) (e : Event) (before after : List (Producer × Event)),
    (s.queues.get p).arriving = before ++ (src, e) :: after → (∀ a ∈ before, a.1 ≠ src) →
    let q := s.queues.get p
    let q' : EventQueue := { q with arriving := before ++ after }
    let atTail (f : EventRecord → EventRecord) : List EventRecord := q.records.dropLast ++ (q.records.getLast?.map f).toList
    let isMarker (r : EventRecord) : Bool := decide (r.event.kind = .overflow)
    exec (.eventAppend p src) s = .next
      { s with
        queues := s.queues.put p (
          if q.isOpen = false then q'
          else if q.records.length < 31 then
            { q' with
              records := atTail (fun r => if isMarker r then { r with event := { r.event with detail := some (.marker true) } } else r)
                ++ [⟨q.next, e⟩]
              next := q.next + 1
              attn := q.attention }
          else if q.records.getLast?.any isMarker then
            { q' with
              records := atTail fun r =>
                { r with event := { r.event with value := if r.event.value = 65535 then 65535 else r.event.value + 1 } }
              attn := q.attention }
          else
            { q' with
              records := q.records ++ [⟨q.next, ⟨.overflow, none, none, some (.marker false), 0, 1, s.timebase⟩⟩]
              next := q.next + 1
              attn := q.attention }) }

/-- R105, R111, R112: ACK EVENTS removes the records from the head through the one numbered, or is refused with the number
held and the head's; SET ATTENTION stores the setting. ATTNn is asserted while the queue is OPEN, attention ENABLED and a
record held. (The code of 'head present' in the refusal: log 22, DEDUCED.) -/
def Obligations.AckEventsSetAttention : Prop :=
  ∀ (s : State) (p : Port) (aw : Bool) (rest : List Dispatch),
    let q := s.queues.get p
    (∀ sequence, s.Flying p (.ackEvents sequence) aw rest → exec (.ackEvents p sequence) s = .next (
      match q.records with
      | [] => s.answered p aw rest ⟨.badSequence, [0, 0, 0, 0]⟩
      | h :: _ =>
        let d := (sequence - h.sequence).toNat
        if d < q.records.length then
          let kept := q.records.drop (d + 1)
          { s.answered p aw rest ⟨.ok, [BitVec.ofNat 8 (d + 1), BitVec.ofNat 8 kept.length]⟩ with
            queues := s.queues.put p { q with records := kept, attn := q.isOpen && q.attention && !kept.isEmpty } }
        else s.answered p aw rest ⟨.badSequence, [BitVec.ofNat 8 q.records.length, 1] ++ le16 h.sequence⟩)) ∧
    (∀ b, s.Flying p (.setAttention b) aw rest → exec (.setAttention p b) s = .next
      { s.answered p aw rest ⟨.ok, [boolCode b, BitVec.ofNat 8 q.records.length]⟩ with
        queues := s.queues.put p { q with attention := b, attn := q.isOpen && b && !q.records.isEmpty } })

/-! ### The capture ring -/

/-- R114–R118: trigger inputs. A selected edge fills an EMPTY latch with the snapshot of the configured axes, and with a FULL
latch only sets the dropped-edge flag; CONFIGURE TRIGGER is refused to a port that is not the author of a trigger not OFF,
and with an empty axis set; it changes neither latch nor flag. -/
def Obligations.Triggers : Prop :=
  ∀ (s : State) (t : TrigIn),
    let u := s.triggers.get t
    (∀ edge, u.level ≠ decide (edge = .rise) →
      let u' : Trigger := { u with level := decide (edge = .rise) }
      let snapshot (axes : BitVec 4) : List AxisEntry :=
        ((List.finRange 4).filter fun ax => axes.getLsbD ax.val).map fun ax =>
          { axis := ax
            position := (s.axes.get ax).count + (s.axes.get ax).offset
            summary := match (s.axes.get ax).state with
              | .idle | .lost _ => .frozen
              | .free | .armed _ => .live
              | .aligned => .aligned }
      exec (.triggerEdge t edge) s = .next
        { s with
          triggers := s.triggers.put t (
            match u.config with
            | none => u'
            | some c =>
              if c.edge = .both ∨ (c.edge = .rise ∧ edge = .rise) ∨ (c.edge = .fall ∧ edge = .fall) then
                match u.latch with
                | none => { u' with latch := some ⟨edge, s.timebase, snapshot c.axes⟩ }
                | some _ => { u' with dropped := true }
              else u') }) ∧
    (∀ p edge axes aw rest, s.Flying p (.configureTrigger t edge axes) aw rest →
      exec (.configureTrigger p t edge axes) s = .next (
        if u.config.any fun c => c.author ≠ p then
          s.answered p aw rest ⟨.triggerInUse, [optPortCode (u.config.map TriggerConfig.author)]⟩
        else match edge with
          | none =>
            { s.answered p aw rest ⟨.ok, [0, 0, 0xFF]⟩ with triggers := s.triggers.put t { u with config := none } }
          | some e =>
            if axes = 0 then s.refusing p aw rest .badArgument
            else
              { s.answered p aw rest ⟨.ok, [edgeCode (some e), axisSetCode axes, finCode p]⟩ with
                triggers := s.triggers.put t { u with config := some ⟨e, axes, p⟩ } }))

/-- R119, R121, R123, R127, R130: the two writes of the ring, of a latched snapshot (the latch EMPTY and the dropped-edge flag
clear after it) and of the oldest zone capture claim. The record takes the next number; in a full ring it replaces the
oldest, and a cursor at that record's place moves on and counts a skip; CAPTURE_READY goes to every port whose cursor waited
for the record. (That a dropped edge is flagged on the record of the snapshot that waited, not on the next, is the model's
choice, log 17.) -/
def Obligations.CaptureWrites : Prop :=
  ∀ s : State,
    let cap := s.capture
    let written (s' : State) (waiting : List CaptureClaim) (r : CaptureRecord) : State :=
      { s' with
        capture :=
          { waiting := waiting
            ring := (if 64 ≤ cap.ring.length then cap.ring.tail else cap.ring) ++ [r]
            counter := cap.counter + 1
            cursors := cap.cursors.mapIdx fun _ k => k.map fun c =>
              if 64 ≤ cap.ring.length ∧ cap.ring.head?.map CaptureRecord.sequence = some c.next then
                ⟨c.next + 1, if c.skip = 4294967295 then 4294967295 else c.skip + 1⟩
              else c }
        queues := s.told .captureUnit fun q =>
          if (cap.cursors.get q).map Cursor.next = some (cap.counter + 1) then
            [⟨.captureReady, none, some (.capture r.source), none, 0, (cap.counter + 1).toNat, s.timebase⟩]
          else [] }
    (∀ t n, (s.triggers.get t).latch = some n → exec (.latchSnapshotWrite t) s = .next (written
      { s with triggers := s.triggers.put t { s.triggers.get t with latch := none, dropped := false } } cap.waiting
      { sequence := cap.counter + 1
        timestamp := n.timestamp
        source := .trigger t
        edge := match n.edge with
          | .rise => .rise
          | .fall => .fall
        generation := none
        precedingDropped := (s.triggers.get t).dropped
        entries := n.entries })) ∧
    (∀ c rest, cap.waiting = c :: rest → exec .zoneCaptureClaim s = .next (written s rest
      { sequence := cap.counter + 1
        timestamp := c.time
        source := .zone c.zone
        edge := match c.event with
          | .enter => .enter
          | .exit => .exit
          | .pass => .pass
        generation := some c.generation
        precedingDropped := false
        entries := [⟨c.axis, c.position, if c.aligned then .aligned else .live⟩] }))

/-- R126, R128–R130: the cursors. ATTACH CURSOR places the cursor at the next record to come or at the oldest held, with
CAPTURE_READY when there is something to read (the field "oldest" of an empty ring is a free value, log 11); DETACH CURSOR
discards it; READ CAPTURES answers the skip count and the records from next on, at most m, and moves next past them.
(The code of 'oldest present': log 22, DEDUCED. The unnamed bits of a capture record's bytes: log 23, DESIGN CHOICE.) -/
def Obligations.Cursors : Prop :=
  ∀ (s : State) (p : Port) (aw : Bool) (rest : List Dispatch),
    let cap := s.capture
    let placed (k : Option Cursor) : CaptureUnit := { cap with cursors := cap.cursors.put p k }
    (∀ mode, s.Flying p (.attachCursor mode) aw rest → exec (.attachCursor p mode) s = .next (
      match cap.ring with
      | [] =>
        { s.answered p aw rest
            ⟨.ok, le32 (cap.counter + 1) ++ le32 (Config.absentOldest s.freeCount) ++ le32 cap.counter ++ [0]⟩ with
          capture := placed (some ⟨cap.counter + 1, 0⟩)
          freeCount := s.freeCount + 1 }
      | r :: _ =>
        let next := if mode = .oldest then r.sequence else cap.counter + 1
        { s.answered p aw rest ⟨.ok, le32 next ++ le32 r.sequence ++ le32 cap.counter ++ [1]⟩ with
          capture := placed (some ⟨next, 0⟩)
          queues := s.told .captureUnit fun q =>
            if mode = .oldest ∧ q = p then
              [⟨.captureReady, none, some (.capture r.source), none, 0, r.sequence.toNat, s.timebase⟩]
            else [] })) ∧
    (s.Flying p .detachCursor aw rest → exec (.detachCursor p) s = .next (
      if cap.cursors.get p = none then s.refusing p aw rest .noCursor
      else { s.answered p aw rest ⟨.ok, []⟩ with capture := placed none })) ∧
    (∀ m, s.Flying p (.readCaptures m) aw rest → exec (.readCaptures p m) s = .next (
      if m = 0 ∨ 4 < m.toNat then s.refusing p aw rest .badArgument
      else match cap.cursors.get p with
        | none => s.refusing p aw rest .noCursor
        | some k =>
          let waiting := (cap.counter - k.next + 1).toNat
          let shown := (cap.ring.drop (cap.ring.length - waiting)).take m.toNat
          let next := (shown.getLast?.map fun r => r.sequence + 1).getD k.next
          { s.answered p aw rest
              ⟨.ok, le32 k.skip ++ le32 next ++
                [BitVec.ofNat 8 (cap.counter - next + 1).toNat, BitVec.ofNat 8 shown.length] ++
                shown.flatMap CaptureRecord.bytes⟩ with
            capture := placed (some ⟨next, 0⟩) }))

/-! ### Messages -/

/-- R134–R139: POST MESSAGE judged in order, the message taking the lowest free id and joining the tail, MESSAGE_ARRIVED to
the recipient; TAKE MESSAGE returns the oldest message of the requester's list, MESSAGE_TAKEN to a sender that asked and
whose posting session lasts; WITHDRAW MESSAGE removes a message of the requester's current session, with no event. (That its
response does not carry the id is the model's choice, log 18.) -/
def Obligations.Messages : Prop :=
  ∀ (s : State) (p : Port) (aw : Bool) (rest : List Dispatch),
    let number := (s.ports.get p).number
    let held (r : Port) (pool : List Message) : Byte := BitVec.ofNat 8 (pool.filter fun m => m.recipient = r).length
    let event (kind : EventKind) (id : Byte) (about : Port) : Event :=
      ⟨kind, none, some (.message id), none, 0, about.val, s.timebase⟩
    (∀ recipient notify payload, s.Flying p (.postMessage recipient notify payload) aw rest →
      ∃ id : Byte,
        (s.pool.length < 16 → (∀ m ∈ s.pool, m.id ≠ id) ∧ ∀ j < id, ∃ m ∈ s.pool, m.id = j) ∧
        exec (.postMessage p recipient notify payload) s = .next (
          if 16 ≤ s.pool.length then s.refusing p aw rest .poolFull
          else if 8 ≤ (s.pool.filter fun m => m.sender = p ∧ m.senderSession = number).length then
            s.refusing p aw rest .senderLimit
          else if (s.ports.get recipient).session ≠ .opened then s.refusing p aw rest .noRecipient
          else if recipient = p ∨ payload.length = 0 ∨ 48 < payload.length then s.refusing p aw rest .badArgument
          else
            let pool := s.pool ++ [⟨id, p, number, recipient, notify, payload, s.timebase⟩]
            { s.answered p aw rest ⟨.ok, [id] ++ le32 s.timebase ++ [held recipient pool]⟩ with
              pool := pool
              queues := s.told .messageRelay fun q => if q = recipient then [event .messageArrived id p] else [] })) ∧
    (s.Flying p .takeMessage aw rest → exec (.takeMessage p) s = .next (
      match s.pool.find? fun m => m.recipient = p with
      | none => s.answered p aw rest ⟨.notFound, [0]⟩
      | some m =>
        let pool := s.pool.eraseP fun m => m.recipient = p
        { s.answered p aw rest
            ⟨.ok, [m.id, finCode m.sender, m.senderSession, boolCode m.notify, BitVec.ofNat 8 m.payload.length] ++
              le32 m.posted ++ [held p pool] ++ m.payload⟩ with
          pool := pool
          queues := s.told .messageRelay fun q =>
            if q = m.sender ∧ m.notify = true ∧ m.senderSession ≠ 0 then [event .messageTaken m.id p] else [] })) ∧
    (∀ id, s.Flying p (.withdrawMessage id) aw rest →
      let mine (m : Message) : Bool := decide (m.id = id ∧ m.sender = p ∧ m.senderSession = number)
      exec (.withdrawMessage p id) s = .next (
      match s.pool.find? mine with
      | none => s.refusing p aw rest .notFound
      | some m =>
        { s.answered p aw rest ⟨.ok, [finCode m.recipient, BitVec.ofNat 8 m.payload.length] ++ le32 m.posted⟩ with
          pool := s.pool.eraseP mine }))


/-! ### The laws the data sheet states, kept by every step -/

/-- R43, R45, R71, R72, R87, R95, R103, R123, R125, R133, R157, R169: the machine after part reset meets every law. -/
def Obligations.LawsHoldAtReset : Prop :=
  State.reset.TimeLaw ∧ State.reset.SlotLaw ∧ State.reset.SessionLaw ∧ State.reset.QueueLaw ∧ State.reset.AxisLaw ∧
    State.reset.ZoneLaw ∧ State.reset.OutputLaw ∧ State.reset.capture.Law ∧ State.reset.PoolLaw

/-- R77, R169, R170: the timebase stands at 0 under reset, STARTING is present only before 3,000, and fewer than 1,000 µs
have passed since the last tick instant. (STARTUP_PERIOD_END passes tick instants over: log 2.) -/
def Obligations.TimeLawKept : Prop := ∀ s t : State, s.TimeLaw → step s = .next t → t.TimeLaw

/-- R146, R150, R155: a port in WORKING awaits exactly one thing, and in READY and ANSWER_READY nothing. -/
def Obligations.SlotLawKept : Prop := ∀ s t : State, s.SlotLaw → step s = .next t → t.SlotLaw

/-- R151, R157, R158: the law of the session: what a port holds with an owner it holds only until that owner's stage of the
teardown, and a CLOSED port holds nothing. -/
def Obligations.SessionLawKept : Prop := ∀ s t : State, s.SessionLaw → step s = .next t → t.SessionLaw

/-- R103, R112: the law of the event queue; a queue is OPEN exactly when its port's session is (R95). -/
def Obligations.QueueLawKept : Prop := ∀ s t : State, s.QueueLaw → step s = .next t → t.QueueLaw

/-- R5, R7, R22, R24: the law of the axis unit, and that the view of its axis is live exactly when it is, once its path has
been taken. -/
def Obligations.AxisLawKept : Prop := ∀ s t : State, s.AxisLaw → step s = .next t → t.AxisLaw

/-- R43, R45: the law of the zone table. -/
def Obligations.ZoneLawKept : Prop := ∀ s t : State, s.ZoneLaw → step s = .next t → t.ZoneLaw

/-- R72–R75, R87: the law of the output table, and that every requested value and every pin is what the rules give. -/
def Obligations.OutputLawKept : Prop := ∀ s t : State, s.OutputLaw → step s = .next t → t.OutputLaw

/-- R123, R125, R127: the law of the capture ring and its cursors. -/
def Obligations.CaptureLawKept : Prop := ∀ s t : State, s.capture.Law → step s = .next t → t.capture.Law

/-- R133–R135, R140: the law of the message pool. -/
def Obligations.PoolLawKept : Prop := ∀ s t : State, s.SessionLaw → s.PoolLaw → step s = .next t → t.PoolLaw

end
end

