-- ==== Sys2Proof/Laws/State.lean ====
section
/-!
SUPPORT. What each update of the state leaves in each field: one lemma per field per update, each true by `rfl`, so that no
later proof unfolds a record update.
-/

namespace Sys2Proof.Machine

/-! ### `State.setPort` -/

@[simp] theorem State.setPort_pending (p : Port) (u : PortUnit) (s : State) :
    (State.setPort p u s).pending = s.pending := rfl
@[simp] theorem State.setPort_rstn (p : Port) (u : PortUnit) (s : State) : (State.setPort p u s).rstn = s.rstn := rfl
@[simp] theorem State.setPort_supplyOk (p : Port) (u : PortUnit) (s : State) :
    (State.setPort p u s).supplyOk = s.supplyOk := rfl
@[simp] theorem State.setPort_timebase (p : Port) (u : PortUnit) (s : State) :
    (State.setPort p u s).timebase = s.timebase := rfl
@[simp] theorem State.setPort_sinceTick (p : Port) (u : PortUnit) (s : State) :
    (State.setPort p u s).sinceTick = s.sinceTick := rfl
@[simp] theorem State.setPort_starting (p : Port) (u : PortUnit) (s : State) :
    (State.setPort p u s).starting = s.starting := rfl
@[simp] theorem State.setPort_ports (p : Port) (u : PortUnit) (s : State) :
    (State.setPort p u s).ports = s.ports.put p u := rfl
@[simp] theorem State.setPort_axes (p : Port) (u : PortUnit) (s : State) : (State.setPort p u s).axes = s.axes := rfl
@[simp] theorem State.setPort_views (p : Port) (u : PortUnit) (s : State) : (State.setPort p u s).views = s.views := rfl
@[simp] theorem State.setPort_zones (p : Port) (u : PortUnit) (s : State) : (State.setPort p u s).zones = s.zones := rfl
@[simp] theorem State.setPort_outputs (p : Port) (u : PortUnit) (s : State) :
    (State.setPort p u s).outputs = s.outputs := rfl
@[simp] theorem State.setPort_drivers (p : Port) (u : PortUnit) (s : State) :
    (State.setPort p u s).drivers = s.drivers := rfl
@[simp] theorem State.setPort_ohold (p : Port) (u : PortUnit) (s : State) : (State.setPort p u s).ohold = s.ohold := rfl
@[simp] theorem State.setPort_queues (p : Port) (u : PortUnit) (s : State) :
    (State.setPort p u s).queues = s.queues := rfl
@[simp] theorem State.setPort_triggers (p : Port) (u : PortUnit) (s : State) :
    (State.setPort p u s).triggers = s.triggers := rfl
@[simp] theorem State.setPort_capture (p : Port) (u : PortUnit) (s : State) :
    (State.setPort p u s).capture = s.capture := rfl
@[simp] theorem State.setPort_pool (p : Port) (u : PortUnit) (s : State) : (State.setPort p u s).pool = s.pool := rfl
@[simp] theorem State.setPort_freeCount (p : Port) (u : PortUnit) (s : State) :
    (State.setPort p u s).freeCount = s.freeCount := rfl

/-! ### `State.setAxis` -/

@[simp] theorem State.setAxis_pending (ax : Axis) (u : AxisUnit) (s : State) :
    (State.setAxis ax u s).pending = s.pending := rfl
@[simp] theorem State.setAxis_rstn (ax : Axis) (u : AxisUnit) (s : State) : (State.setAxis ax u s).rstn = s.rstn := rfl
@[simp] theorem State.setAxis_supplyOk (ax : Axis) (u : AxisUnit) (s : State) :
    (State.setAxis ax u s).supplyOk = s.supplyOk := rfl
@[simp] theorem State.setAxis_timebase (ax : Axis) (u : AxisUnit) (s : State) :
    (State.setAxis ax u s).timebase = s.timebase := rfl
@[simp] theorem State.setAxis_sinceTick (ax : Axis) (u : AxisUnit) (s : State) :
    (State.setAxis ax u s).sinceTick = s.sinceTick := rfl
@[simp] theorem State.setAxis_starting (ax : Axis) (u : AxisUnit) (s : State) :
    (State.setAxis ax u s).starting = s.starting := rfl
@[simp] theorem State.setAxis_ports (ax : Axis) (u : AxisUnit) (s : State) :
    (State.setAxis ax u s).ports = s.ports := rfl
@[simp] theorem State.setAxis_axes (ax : Axis) (u : AxisUnit) (s : State) :
    (State.setAxis ax u s).axes = s.axes.put ax u := rfl
@[simp] theorem State.setAxis_views (ax : Axis) (u : AxisUnit) (s : State) :
    (State.setAxis ax u s).views = s.views := rfl
@[simp] theorem State.setAxis_zones (ax : Axis) (u : AxisUnit) (s : State) :
    (State.setAxis ax u s).zones = s.zones := rfl
@[simp] theorem State.setAxis_outputs (ax : Axis) (u : AxisUnit) (s : State) :
    (State.setAxis ax u s).outputs = s.outputs := rfl
@[simp] theorem State.setAxis_drivers (ax : Axis) (u : AxisUnit) (s : State) :
    (State.setAxis ax u s).drivers = s.drivers := rfl
@[simp] theorem State.setAxis_ohold (ax : Axis) (u : AxisUnit) (s : State) :
    (State.setAxis ax u s).ohold = s.ohold := rfl
@[simp] theorem State.setAxis_queues (ax : Axis) (u : AxisUnit) (s : State) :
    (State.setAxis ax u s).queues = s.queues := rfl
@[simp] theorem State.setAxis_triggers (ax : Axis) (u : AxisUnit) (s : State) :
    (State.setAxis ax u s).triggers = s.triggers := rfl
@[simp] theorem State.setAxis_capture (ax : Axis) (u : AxisUnit) (s : State) :
    (State.setAxis ax u s).capture = s.capture := rfl
@[simp] theorem State.setAxis_pool (ax : Axis) (u : AxisUnit) (s : State) : (State.setAxis ax u s).pool = s.pool := rfl
@[simp] theorem State.setAxis_freeCount (ax : Axis) (u : AxisUnit) (s : State) :
    (State.setAxis ax u s).freeCount = s.freeCount := rfl

/-! ### `State.setQueue` -/

@[simp] theorem State.setQueue_pending (p : Port) (q : EventQueue) (s : State) :
    (State.setQueue p q s).pending = s.pending := rfl
@[simp] theorem State.setQueue_rstn (p : Port) (q : EventQueue) (s : State) :
    (State.setQueue p q s).rstn = s.rstn := rfl
@[simp] theorem State.setQueue_supplyOk (p : Port) (q : EventQueue) (s : State) :
    (State.setQueue p q s).supplyOk = s.supplyOk := rfl
@[simp] theorem State.setQueue_timebase (p : Port) (q : EventQueue) (s : State) :
    (State.setQueue p q s).timebase = s.timebase := rfl
@[simp] theorem State.setQueue_sinceTick (p : Port) (q : EventQueue) (s : State) :
    (State.setQueue p q s).sinceTick = s.sinceTick := rfl
@[simp] theorem State.setQueue_starting (p : Port) (q : EventQueue) (s : State) :
    (State.setQueue p q s).starting = s.starting := rfl
@[simp] theorem State.setQueue_ports (p : Port) (q : EventQueue) (s : State) :
    (State.setQueue p q s).ports = s.ports := rfl
@[simp] theorem State.setQueue_axes (p : Port) (q : EventQueue) (s : State) :
    (State.setQueue p q s).axes = s.axes := rfl
@[simp] theorem State.setQueue_views (p : Port) (q : EventQueue) (s : State) :
    (State.setQueue p q s).views = s.views := rfl
@[simp] theorem State.setQueue_zones (p : Port) (q : EventQueue) (s : State) :
    (State.setQueue p q s).zones = s.zones := rfl
@[simp] theorem State.setQueue_outputs (p : Port) (q : EventQueue) (s : State) :
    (State.setQueue p q s).outputs = s.outputs := rfl
@[simp] theorem State.setQueue_drivers (p : Port) (q : EventQueue) (s : State) :
    (State.setQueue p q s).drivers = s.drivers := rfl
@[simp] theorem State.setQueue_ohold (p : Port) (q : EventQueue) (s : State) :
    (State.setQueue p q s).ohold = s.ohold := rfl
@[simp] theorem State.setQueue_queues (p : Port) (q : EventQueue) (s : State) :
    (State.setQueue p q s).queues = s.queues.put p q := rfl
@[simp] theorem State.setQueue_triggers (p : Port) (q : EventQueue) (s : State) :
    (State.setQueue p q s).triggers = s.triggers := rfl
@[simp] theorem State.setQueue_capture (p : Port) (q : EventQueue) (s : State) :
    (State.setQueue p q s).capture = s.capture := rfl
@[simp] theorem State.setQueue_pool (p : Port) (q : EventQueue) (s : State) :
    (State.setQueue p q s).pool = s.pool := rfl
@[simp] theorem State.setQueue_freeCount (p : Port) (q : EventQueue) (s : State) :
    (State.setQueue p q s).freeCount = s.freeCount := rfl

/-! ### `State.setTrigger` -/

@[simp] theorem State.setTrigger_pending (t : TrigIn) (u : Trigger) (s : State) :
    (State.setTrigger t u s).pending = s.pending := rfl
@[simp] theorem State.setTrigger_rstn (t : TrigIn) (u : Trigger) (s : State) :
    (State.setTrigger t u s).rstn = s.rstn := rfl
@[simp] theorem State.setTrigger_supplyOk (t : TrigIn) (u : Trigger) (s : State) :
    (State.setTrigger t u s).supplyOk = s.supplyOk := rfl
@[simp] theorem State.setTrigger_timebase (t : TrigIn) (u : Trigger) (s : State) :
    (State.setTrigger t u s).timebase = s.timebase := rfl
@[simp] theorem State.setTrigger_sinceTick (t : TrigIn) (u : Trigger) (s : State) :
    (State.setTrigger t u s).sinceTick = s.sinceTick := rfl
@[simp] theorem State.setTrigger_starting (t : TrigIn) (u : Trigger) (s : State) :
    (State.setTrigger t u s).starting = s.starting := rfl
@[simp] theorem State.setTrigger_ports (t : TrigIn) (u : Trigger) (s : State) :
    (State.setTrigger t u s).ports = s.ports := rfl
@[simp] theorem State.setTrigger_axes (t : TrigIn) (u : Trigger) (s : State) :
    (State.setTrigger t u s).axes = s.axes := rfl
@[simp] theorem State.setTrigger_views (t : TrigIn) (u : Trigger) (s : State) :
    (State.setTrigger t u s).views = s.views := rfl
@[simp] theorem State.setTrigger_zones (t : TrigIn) (u : Trigger) (s : State) :
    (State.setTrigger t u s).zones = s.zones := rfl
@[simp] theorem State.setTrigger_outputs (t : TrigIn) (u : Trigger) (s : State) :
    (State.setTrigger t u s).outputs = s.outputs := rfl
@[simp] theorem State.setTrigger_drivers (t : TrigIn) (u : Trigger) (s : State) :
    (State.setTrigger t u s).drivers = s.drivers := rfl
@[simp] theorem State.setTrigger_ohold (t : TrigIn) (u : Trigger) (s : State) :
    (State.setTrigger t u s).ohold = s.ohold := rfl
@[simp] theorem State.setTrigger_queues (t : TrigIn) (u : Trigger) (s : State) :
    (State.setTrigger t u s).queues = s.queues := rfl
@[simp] theorem State.setTrigger_triggers (t : TrigIn) (u : Trigger) (s : State) :
    (State.setTrigger t u s).triggers = s.triggers.put t u := rfl
@[simp] theorem State.setTrigger_capture (t : TrigIn) (u : Trigger) (s : State) :
    (State.setTrigger t u s).capture = s.capture := rfl
@[simp] theorem State.setTrigger_pool (t : TrigIn) (u : Trigger) (s : State) :
    (State.setTrigger t u s).pool = s.pool := rfl
@[simp] theorem State.setTrigger_freeCount (t : TrigIn) (u : Trigger) (s : State) :
    (State.setTrigger t u s).freeCount = s.freeCount := rfl

/-! ### `State.setSlot` -/

@[simp] theorem State.setSlot_pending (z : ZoneId) (sl : Slot) (s : State) :
    (State.setSlot z sl s).pending = s.pending := rfl
@[simp] theorem State.setSlot_rstn (z : ZoneId) (sl : Slot) (s : State) : (State.setSlot z sl s).rstn = s.rstn := rfl
@[simp] theorem State.setSlot_supplyOk (z : ZoneId) (sl : Slot) (s : State) :
    (State.setSlot z sl s).supplyOk = s.supplyOk := rfl
@[simp] theorem State.setSlot_timebase (z : ZoneId) (sl : Slot) (s : State) :
    (State.setSlot z sl s).timebase = s.timebase := rfl
@[simp] theorem State.setSlot_sinceTick (z : ZoneId) (sl : Slot) (s : State) :
    (State.setSlot z sl s).sinceTick = s.sinceTick := rfl
@[simp] theorem State.setSlot_starting (z : ZoneId) (sl : Slot) (s : State) :
    (State.setSlot z sl s).starting = s.starting := rfl
@[simp] theorem State.setSlot_ports (z : ZoneId) (sl : Slot) (s : State) : (State.setSlot z sl s).ports = s.ports := rfl
@[simp] theorem State.setSlot_axes (z : ZoneId) (sl : Slot) (s : State) : (State.setSlot z sl s).axes = s.axes := rfl
@[simp] theorem State.setSlot_views (z : ZoneId) (sl : Slot) (s : State) : (State.setSlot z sl s).views = s.views := rfl
@[simp] theorem State.setSlot_zones (z : ZoneId) (sl : Slot) (s : State) :
    (State.setSlot z sl s).zones = s.zones.put z sl := rfl
@[simp] theorem State.setSlot_outputs (z : ZoneId) (sl : Slot) (s : State) :
    (State.setSlot z sl s).outputs = s.outputs := rfl
@[simp] theorem State.setSlot_drivers (z : ZoneId) (sl : Slot) (s : State) :
    (State.setSlot z sl s).drivers = s.drivers := rfl
@[simp] theorem State.setSlot_ohold (z : ZoneId) (sl : Slot) (s : State) : (State.setSlot z sl s).ohold = s.ohold := rfl
@[simp] theorem State.setSlot_queues (z : ZoneId) (sl : Slot) (s : State) :
    (State.setSlot z sl s).queues = s.queues := rfl
@[simp] theorem State.setSlot_triggers (z : ZoneId) (sl : Slot) (s : State) :
    (State.setSlot z sl s).triggers = s.triggers := rfl
@[simp] theorem State.setSlot_capture (z : ZoneId) (sl : Slot) (s : State) :
    (State.setSlot z sl s).capture = s.capture := rfl
@[simp] theorem State.setSlot_pool (z : ZoneId) (sl : Slot) (s : State) : (State.setSlot z sl s).pool = s.pool := rfl
@[simp] theorem State.setSlot_freeCount (z : ZoneId) (sl : Slot) (s : State) :
    (State.setSlot z sl s).freeCount = s.freeCount := rfl

/-! ### `State.setView` -/

@[simp] theorem State.setView_pending (ax : Axis) (v : View) (s : State) :
    (State.setView ax v s).pending = s.pending := rfl
@[simp] theorem State.setView_rstn (ax : Axis) (v : View) (s : State) : (State.setView ax v s).rstn = s.rstn := rfl
@[simp] theorem State.setView_supplyOk (ax : Axis) (v : View) (s : State) :
    (State.setView ax v s).supplyOk = s.supplyOk := rfl
@[simp] theorem State.setView_timebase (ax : Axis) (v : View) (s : State) :
    (State.setView ax v s).timebase = s.timebase := rfl
@[simp] theorem State.setView_sinceTick (ax : Axis) (v : View) (s : State) :
    (State.setView ax v s).sinceTick = s.sinceTick := rfl
@[simp] theorem State.setView_starting (ax : Axis) (v : View) (s : State) :
    (State.setView ax v s).starting = s.starting := rfl
@[simp] theorem State.setView_ports (ax : Axis) (v : View) (s : State) : (State.setView ax v s).ports = s.ports := rfl
@[simp] theorem State.setView_axes (ax : Axis) (v : View) (s : State) : (State.setView ax v s).axes = s.axes := rfl
@[simp] theorem State.setView_views (ax : Axis) (v : View) (s : State) :
    (State.setView ax v s).views = s.views.put ax v := rfl
@[simp] theorem State.setView_zones (ax : Axis) (v : View) (s : State) : (State.setView ax v s).zones = s.zones := rfl
@[simp] theorem State.setView_outputs (ax : Axis) (v : View) (s : State) :
    (State.setView ax v s).outputs = s.outputs := rfl
@[simp] theorem State.setView_drivers (ax : Axis) (v : View) (s : State) :
    (State.setView ax v s).drivers = s.drivers := rfl
@[simp] theorem State.setView_ohold (ax : Axis) (v : View) (s : State) : (State.setView ax v s).ohold = s.ohold := rfl
@[simp] theorem State.setView_queues (ax : Axis) (v : View) (s : State) :
    (State.setView ax v s).queues = s.queues := rfl
@[simp] theorem State.setView_triggers (ax : Axis) (v : View) (s : State) :
    (State.setView ax v s).triggers = s.triggers := rfl
@[simp] theorem State.setView_capture (ax : Axis) (v : View) (s : State) :
    (State.setView ax v s).capture = s.capture := rfl
@[simp] theorem State.setView_pool (ax : Axis) (v : View) (s : State) : (State.setView ax v s).pool = s.pool := rfl
@[simp] theorem State.setView_freeCount (ax : Axis) (v : View) (s : State) :
    (State.setView ax v s).freeCount = s.freeCount := rfl

/-! ### `State.setCursor` -/

@[simp] theorem State.setCursor_pending (p : Port) (c : Option Cursor) (s : State) :
    (State.setCursor p c s).pending = s.pending := rfl
@[simp] theorem State.setCursor_rstn (p : Port) (c : Option Cursor) (s : State) :
    (State.setCursor p c s).rstn = s.rstn := rfl
@[simp] theorem State.setCursor_supplyOk (p : Port) (c : Option Cursor) (s : State) :
    (State.setCursor p c s).supplyOk = s.supplyOk := rfl
@[simp] theorem State.setCursor_timebase (p : Port) (c : Option Cursor) (s : State) :
    (State.setCursor p c s).timebase = s.timebase := rfl
@[simp] theorem State.setCursor_sinceTick (p : Port) (c : Option Cursor) (s : State) :
    (State.setCursor p c s).sinceTick = s.sinceTick := rfl
@[simp] theorem State.setCursor_starting (p : Port) (c : Option Cursor) (s : State) :
    (State.setCursor p c s).starting = s.starting := rfl
@[simp] theorem State.setCursor_ports (p : Port) (c : Option Cursor) (s : State) :
    (State.setCursor p c s).ports = s.ports := rfl
@[simp] theorem State.setCursor_axes (p : Port) (c : Option Cursor) (s : State) :
    (State.setCursor p c s).axes = s.axes := rfl
@[simp] theorem State.setCursor_views (p : Port) (c : Option Cursor) (s : State) :
    (State.setCursor p c s).views = s.views := rfl
@[simp] theorem State.setCursor_zones (p : Port) (c : Option Cursor) (s : State) :
    (State.setCursor p c s).zones = s.zones := rfl
@[simp] theorem State.setCursor_outputs (p : Port) (c : Option Cursor) (s : State) :
    (State.setCursor p c s).outputs = s.outputs := rfl
@[simp] theorem State.setCursor_drivers (p : Port) (c : Option Cursor) (s : State) :
    (State.setCursor p c s).drivers = s.drivers := rfl
@[simp] theorem State.setCursor_ohold (p : Port) (c : Option Cursor) (s : State) :
    (State.setCursor p c s).ohold = s.ohold := rfl
@[simp] theorem State.setCursor_queues (p : Port) (c : Option Cursor) (s : State) :
    (State.setCursor p c s).queues = s.queues := rfl
@[simp] theorem State.setCursor_triggers (p : Port) (c : Option Cursor) (s : State) :
    (State.setCursor p c s).triggers = s.triggers := rfl
@[simp] theorem State.setCursor_capture (p : Port) (c : Option Cursor) (s : State) :
    (State.setCursor p c s).capture = { s.capture with cursors := s.capture.cursors.put p c } := rfl
@[simp] theorem State.setCursor_pool (p : Port) (c : Option Cursor) (s : State) :
    (State.setCursor p c s).pool = s.pool := rfl
@[simp] theorem State.setCursor_freeCount (p : Port) (c : Option Cursor) (s : State) :
    (State.setCursor p c s).freeCount = s.freeCount := rfl

/-! ### `State.setPool` -/

@[simp] theorem State.setPool_pending (m : List Message) (s : State) : (State.setPool m s).pending = s.pending := rfl
@[simp] theorem State.setPool_rstn (m : List Message) (s : State) : (State.setPool m s).rstn = s.rstn := rfl
@[simp] theorem State.setPool_supplyOk (m : List Message) (s : State) : (State.setPool m s).supplyOk = s.supplyOk := rfl
@[simp] theorem State.setPool_timebase (m : List Message) (s : State) : (State.setPool m s).timebase = s.timebase := rfl
@[simp] theorem State.setPool_sinceTick (m : List Message) (s : State) :
    (State.setPool m s).sinceTick = s.sinceTick := rfl
@[simp] theorem State.setPool_starting (m : List Message) (s : State) : (State.setPool m s).starting = s.starting := rfl
@[simp] theorem State.setPool_ports (m : List Message) (s : State) : (State.setPool m s).ports = s.ports := rfl
@[simp] theorem State.setPool_axes (m : List Message) (s : State) : (State.setPool m s).axes = s.axes := rfl
@[simp] theorem State.setPool_views (m : List Message) (s : State) : (State.setPool m s).views = s.views := rfl
@[simp] theorem State.setPool_zones (m : List Message) (s : State) : (State.setPool m s).zones = s.zones := rfl
@[simp] theorem State.setPool_outputs (m : List Message) (s : State) : (State.setPool m s).outputs = s.outputs := rfl
@[simp] theorem State.setPool_drivers (m : List Message) (s : State) : (State.setPool m s).drivers = s.drivers := rfl
@[simp] theorem State.setPool_ohold (m : List Message) (s : State) : (State.setPool m s).ohold = s.ohold := rfl
@[simp] theorem State.setPool_queues (m : List Message) (s : State) : (State.setPool m s).queues = s.queues := rfl
@[simp] theorem State.setPool_triggers (m : List Message) (s : State) : (State.setPool m s).triggers = s.triggers := rfl
@[simp] theorem State.setPool_capture (m : List Message) (s : State) : (State.setPool m s).capture = s.capture := rfl
@[simp] theorem State.setPool_pool (m : List Message) (s : State) : (State.setPool m s).pool = m := rfl
@[simp] theorem State.setPool_freeCount (m : List Message) (s : State) :
    (State.setPool m s).freeCount = s.freeCount := rfl

/-! ### `State.hand` -/

@[simp] theorem State.hand_pending (src : Producer) (es : List (Port × Event)) (s : State) :
    (State.hand src es s).pending = s.pending := rfl
@[simp] theorem State.hand_rstn (src : Producer) (es : List (Port × Event)) (s : State) :
    (State.hand src es s).rstn = s.rstn := rfl
@[simp] theorem State.hand_supplyOk (src : Producer) (es : List (Port × Event)) (s : State) :
    (State.hand src es s).supplyOk = s.supplyOk := rfl
@[simp] theorem State.hand_timebase (src : Producer) (es : List (Port × Event)) (s : State) :
    (State.hand src es s).timebase = s.timebase := rfl
@[simp] theorem State.hand_sinceTick (src : Producer) (es : List (Port × Event)) (s : State) :
    (State.hand src es s).sinceTick = s.sinceTick := rfl
@[simp] theorem State.hand_starting (src : Producer) (es : List (Port × Event)) (s : State) :
    (State.hand src es s).starting = s.starting := rfl
@[simp] theorem State.hand_ports (src : Producer) (es : List (Port × Event)) (s : State) :
    (State.hand src es s).ports = s.ports := rfl
@[simp] theorem State.hand_axes (src : Producer) (es : List (Port × Event)) (s : State) :
    (State.hand src es s).axes = s.axes := rfl
@[simp] theorem State.hand_views (src : Producer) (es : List (Port × Event)) (s : State) :
    (State.hand src es s).views = s.views := rfl
@[simp] theorem State.hand_zones (src : Producer) (es : List (Port × Event)) (s : State) :
    (State.hand src es s).zones = s.zones := rfl
@[simp] theorem State.hand_outputs (src : Producer) (es : List (Port × Event)) (s : State) :
    (State.hand src es s).outputs = s.outputs := rfl
@[simp] theorem State.hand_drivers (src : Producer) (es : List (Port × Event)) (s : State) :
    (State.hand src es s).drivers = s.drivers := rfl
@[simp] theorem State.hand_ohold (src : Producer) (es : List (Port × Event)) (s : State) :
    (State.hand src es s).ohold = s.ohold := rfl
@[simp] theorem State.hand_queues (src : Producer) (es : List (Port × Event)) (s : State) :
    (State.hand src es s).queues = s.queues.mapIdx fun p q => q.receive src (eventsFor p es) := rfl
@[simp] theorem State.hand_triggers (src : Producer) (es : List (Port × Event)) (s : State) :
    (State.hand src es s).triggers = s.triggers := rfl
@[simp] theorem State.hand_capture (src : Producer) (es : List (Port × Event)) (s : State) :
    (State.hand src es s).capture = s.capture := rfl
@[simp] theorem State.hand_pool (src : Producer) (es : List (Port × Event)) (s : State) :
    (State.hand src es s).pool = s.pool := rfl
@[simp] theorem State.hand_freeCount (src : Producer) (es : List (Port × Event)) (s : State) :
    (State.hand src es s).freeCount = s.freeCount := rfl

/-! ### `State.commitOutputs` -/

@[simp] theorem State.commitOutputs_pending (outs : Table 8 Output) (s : State) :
    (State.commitOutputs outs s).pending = s.pending := rfl
@[simp] theorem State.commitOutputs_rstn (outs : Table 8 Output) (s : State) :
    (State.commitOutputs outs s).rstn = s.rstn := rfl
@[simp] theorem State.commitOutputs_supplyOk (outs : Table 8 Output) (s : State) :
    (State.commitOutputs outs s).supplyOk = s.supplyOk := rfl
@[simp] theorem State.commitOutputs_timebase (outs : Table 8 Output) (s : State) :
    (State.commitOutputs outs s).timebase = s.timebase := rfl
@[simp] theorem State.commitOutputs_sinceTick (outs : Table 8 Output) (s : State) :
    (State.commitOutputs outs s).sinceTick = s.sinceTick := rfl
@[simp] theorem State.commitOutputs_starting (outs : Table 8 Output) (s : State) :
    (State.commitOutputs outs s).starting = s.starting := rfl
@[simp] theorem State.commitOutputs_ports (outs : Table 8 Output) (s : State) :
    (State.commitOutputs outs s).ports = s.ports := rfl
@[simp] theorem State.commitOutputs_axes (outs : Table 8 Output) (s : State) :
    (State.commitOutputs outs s).axes = s.axes := rfl
@[simp] theorem State.commitOutputs_views (outs : Table 8 Output) (s : State) :
    (State.commitOutputs outs s).views = s.views := rfl
@[simp] theorem State.commitOutputs_zones (outs : Table 8 Output) (s : State) :
    (State.commitOutputs outs s).zones = s.zones := rfl
@[simp] theorem State.commitOutputs_outputs (outs : Table 8 Output) (s : State) :
    (State.commitOutputs outs s).outputs = outs := rfl
@[simp] theorem State.commitOutputs_drivers (outs : Table 8 Output) (s : State) :
    (State.commitOutputs outs s).drivers = s.drivers.mapIdx fun o d => d.handOver s.ohold (s.outputs.get o) (outs.get o) := rfl
@[simp] theorem State.commitOutputs_ohold (outs : Table 8 Output) (s : State) :
    (State.commitOutputs outs s).ohold = s.ohold := rfl
@[simp] theorem State.commitOutputs_queues (outs : Table 8 Output) (s : State) :
    (State.commitOutputs outs s).queues = s.queues := rfl
@[simp] theorem State.commitOutputs_triggers (outs : Table 8 Output) (s : State) :
    (State.commitOutputs outs s).triggers = s.triggers := rfl
@[simp] theorem State.commitOutputs_capture (outs : Table 8 Output) (s : State) :
    (State.commitOutputs outs s).capture = s.capture := rfl
@[simp] theorem State.commitOutputs_pool (outs : Table 8 Output) (s : State) :
    (State.commitOutputs outs s).pool = s.pool := rfl
@[simp] theorem State.commitOutputs_freeCount (outs : Table 8 Output) (s : State) :
    (State.commitOutputs outs s).freeCount = s.freeCount := rfl

/-! ### `State.withInFlight` -/

@[simp] theorem State.withInFlight_pending (p : Port) (ds : List Dispatch) (s : State) :
    (State.withInFlight p ds s).pending = s.pending := rfl
@[simp] theorem State.withInFlight_rstn (p : Port) (ds : List Dispatch) (s : State) :
    (State.withInFlight p ds s).rstn = s.rstn := rfl
@[simp] theorem State.withInFlight_supplyOk (p : Port) (ds : List Dispatch) (s : State) :
    (State.withInFlight p ds s).supplyOk = s.supplyOk := rfl
@[simp] theorem State.withInFlight_timebase (p : Port) (ds : List Dispatch) (s : State) :
    (State.withInFlight p ds s).timebase = s.timebase := rfl
@[simp] theorem State.withInFlight_sinceTick (p : Port) (ds : List Dispatch) (s : State) :
    (State.withInFlight p ds s).sinceTick = s.sinceTick := rfl
@[simp] theorem State.withInFlight_starting (p : Port) (ds : List Dispatch) (s : State) :
    (State.withInFlight p ds s).starting = s.starting := rfl
@[simp] theorem State.withInFlight_ports (p : Port) (ds : List Dispatch) (s : State) :
    (State.withInFlight p ds s).ports = s.ports.put p { s.ports.get p with inFlight := ds } := rfl
@[simp] theorem State.withInFlight_axes (p : Port) (ds : List Dispatch) (s : State) :
    (State.withInFlight p ds s).axes = s.axes := rfl
@[simp] theorem State.withInFlight_views (p : Port) (ds : List Dispatch) (s : State) :
    (State.withInFlight p ds s).views = s.views := rfl
@[simp] theorem State.withInFlight_zones (p : Port) (ds : List Dispatch) (s : State) :
    (State.withInFlight p ds s).zones = s.zones := rfl
@[simp] theorem State.withInFlight_outputs (p : Port) (ds : List Dispatch) (s : State) :
    (State.withInFlight p ds s).outputs = s.outputs := rfl
@[simp] theorem State.withInFlight_drivers (p : Port) (ds : List Dispatch) (s : State) :
    (State.withInFlight p ds s).drivers = s.drivers := rfl
@[simp] theorem State.withInFlight_ohold (p : Port) (ds : List Dispatch) (s : State) :
    (State.withInFlight p ds s).ohold = s.ohold := rfl
@[simp] theorem State.withInFlight_queues (p : Port) (ds : List Dispatch) (s : State) :
    (State.withInFlight p ds s).queues = s.queues := rfl
@[simp] theorem State.withInFlight_triggers (p : Port) (ds : List Dispatch) (s : State) :
    (State.withInFlight p ds s).triggers = s.triggers := rfl
@[simp] theorem State.withInFlight_capture (p : Port) (ds : List Dispatch) (s : State) :
    (State.withInFlight p ds s).capture = s.capture := rfl
@[simp] theorem State.withInFlight_pool (p : Port) (ds : List Dispatch) (s : State) :
    (State.withInFlight p ds s).pool = s.pool := rfl
@[simp] theorem State.withInFlight_freeCount (p : Port) (ds : List Dispatch) (s : State) :
    (State.withInFlight p ds s).freeCount = s.freeCount := rfl

/-! ### `State.answer` -/

@[simp] theorem State.answer_pending (p : Port) (b : Bool) (a : Answer) (s : State) :
    (State.answer p b a s).pending = s.pending := rfl
@[simp] theorem State.answer_rstn (p : Port) (b : Bool) (a : Answer) (s : State) :
    (State.answer p b a s).rstn = s.rstn := rfl
@[simp] theorem State.answer_supplyOk (p : Port) (b : Bool) (a : Answer) (s : State) :
    (State.answer p b a s).supplyOk = s.supplyOk := rfl
@[simp] theorem State.answer_timebase (p : Port) (b : Bool) (a : Answer) (s : State) :
    (State.answer p b a s).timebase = s.timebase := rfl
@[simp] theorem State.answer_sinceTick (p : Port) (b : Bool) (a : Answer) (s : State) :
    (State.answer p b a s).sinceTick = s.sinceTick := rfl
@[simp] theorem State.answer_starting (p : Port) (b : Bool) (a : Answer) (s : State) :
    (State.answer p b a s).starting = s.starting := rfl
@[simp] theorem State.answer_ports (p : Port) (b : Bool) (a : Answer) (s : State) :
    (State.answer p b a s).ports = s.ports.put p ((s.ports.get p).receive b a) := rfl
@[simp] theorem State.answer_axes (p : Port) (b : Bool) (a : Answer) (s : State) :
    (State.answer p b a s).axes = s.axes := rfl
@[simp] theorem State.answer_views (p : Port) (b : Bool) (a : Answer) (s : State) :
    (State.answer p b a s).views = s.views := rfl
@[simp] theorem State.answer_zones (p : Port) (b : Bool) (a : Answer) (s : State) :
    (State.answer p b a s).zones = s.zones := rfl
@[simp] theorem State.answer_outputs (p : Port) (b : Bool) (a : Answer) (s : State) :
    (State.answer p b a s).outputs = s.outputs := rfl
@[simp] theorem State.answer_drivers (p : Port) (b : Bool) (a : Answer) (s : State) :
    (State.answer p b a s).drivers = s.drivers := rfl
@[simp] theorem State.answer_ohold (p : Port) (b : Bool) (a : Answer) (s : State) :
    (State.answer p b a s).ohold = s.ohold := rfl
@[simp] theorem State.answer_queues (p : Port) (b : Bool) (a : Answer) (s : State) :
    (State.answer p b a s).queues = s.queues := rfl
@[simp] theorem State.answer_triggers (p : Port) (b : Bool) (a : Answer) (s : State) :
    (State.answer p b a s).triggers = s.triggers := rfl
@[simp] theorem State.answer_capture (p : Port) (b : Bool) (a : Answer) (s : State) :
    (State.answer p b a s).capture = s.capture := rfl
@[simp] theorem State.answer_pool (p : Port) (b : Bool) (a : Answer) (s : State) :
    (State.answer p b a s).pool = s.pool := rfl
@[simp] theorem State.answer_freeCount (p : Port) (b : Bool) (a : Answer) (s : State) :
    (State.answer p b a s).freeCount = s.freeCount := rfl

/-! ### `State.axisStep` -/

@[simp] theorem State.axisStep_pending (ax : Axis) (w : AxisUnit × List (Port × Event)) (s : State) :
    (State.axisStep ax w s).pending = s.pending := rfl
@[simp] theorem State.axisStep_rstn (ax : Axis) (w : AxisUnit × List (Port × Event)) (s : State) :
    (State.axisStep ax w s).rstn = s.rstn := rfl
@[simp] theorem State.axisStep_supplyOk (ax : Axis) (w : AxisUnit × List (Port × Event)) (s : State) :
    (State.axisStep ax w s).supplyOk = s.supplyOk := rfl
@[simp] theorem State.axisStep_timebase (ax : Axis) (w : AxisUnit × List (Port × Event)) (s : State) :
    (State.axisStep ax w s).timebase = s.timebase := rfl
@[simp] theorem State.axisStep_sinceTick (ax : Axis) (w : AxisUnit × List (Port × Event)) (s : State) :
    (State.axisStep ax w s).sinceTick = s.sinceTick := rfl
@[simp] theorem State.axisStep_starting (ax : Axis) (w : AxisUnit × List (Port × Event)) (s : State) :
    (State.axisStep ax w s).starting = s.starting := rfl
@[simp] theorem State.axisStep_ports (ax : Axis) (w : AxisUnit × List (Port × Event)) (s : State) :
    (State.axisStep ax w s).ports = s.ports := rfl
@[simp] theorem State.axisStep_axes (ax : Axis) (w : AxisUnit × List (Port × Event)) (s : State) :
    (State.axisStep ax w s).axes = s.axes.put ax w.1 := rfl
@[simp] theorem State.axisStep_views (ax : Axis) (w : AxisUnit × List (Port × Event)) (s : State) :
    (State.axisStep ax w s).views = s.views := rfl
@[simp] theorem State.axisStep_zones (ax : Axis) (w : AxisUnit × List (Port × Event)) (s : State) :
    (State.axisStep ax w s).zones = s.zones := rfl
@[simp] theorem State.axisStep_outputs (ax : Axis) (w : AxisUnit × List (Port × Event)) (s : State) :
    (State.axisStep ax w s).outputs = s.outputs := rfl
@[simp] theorem State.axisStep_drivers (ax : Axis) (w : AxisUnit × List (Port × Event)) (s : State) :
    (State.axisStep ax w s).drivers = s.drivers := rfl
@[simp] theorem State.axisStep_ohold (ax : Axis) (w : AxisUnit × List (Port × Event)) (s : State) :
    (State.axisStep ax w s).ohold = s.ohold := rfl
@[simp] theorem State.axisStep_queues (ax : Axis) (w : AxisUnit × List (Port × Event)) (s : State) :
    (State.axisStep ax w s).queues = s.queues.mapIdx fun p q => q.receive (.axisUnit ax) (eventsFor p w.2) := rfl
@[simp] theorem State.axisStep_triggers (ax : Axis) (w : AxisUnit × List (Port × Event)) (s : State) :
    (State.axisStep ax w s).triggers = s.triggers := rfl
@[simp] theorem State.axisStep_capture (ax : Axis) (w : AxisUnit × List (Port × Event)) (s : State) :
    (State.axisStep ax w s).capture = s.capture := rfl
@[simp] theorem State.axisStep_pool (ax : Axis) (w : AxisUnit × List (Port × Event)) (s : State) :
    (State.axisStep ax w s).pool = s.pool := rfl
@[simp] theorem State.axisStep_freeCount (ax : Axis) (w : AxisUnit × List (Port × Event)) (s : State) :
    (State.axisStep ax w s).freeCount = s.freeCount := rfl

/-! ### `State.keepOutput` -/

@[simp] theorem State.keepOutput_pending (o : Line) (out : Output) (s : State) :
    (State.keepOutput o out s).pending = s.pending := rfl
@[simp] theorem State.keepOutput_rstn (o : Line) (out : Output) (s : State) :
    (State.keepOutput o out s).rstn = s.rstn := rfl
@[simp] theorem State.keepOutput_supplyOk (o : Line) (out : Output) (s : State) :
    (State.keepOutput o out s).supplyOk = s.supplyOk := rfl
@[simp] theorem State.keepOutput_timebase (o : Line) (out : Output) (s : State) :
    (State.keepOutput o out s).timebase = s.timebase := rfl
@[simp] theorem State.keepOutput_sinceTick (o : Line) (out : Output) (s : State) :
    (State.keepOutput o out s).sinceTick = s.sinceTick := rfl
@[simp] theorem State.keepOutput_starting (o : Line) (out : Output) (s : State) :
    (State.keepOutput o out s).starting = s.starting := rfl
@[simp] theorem State.keepOutput_ports (o : Line) (out : Output) (s : State) :
    (State.keepOutput o out s).ports = s.ports := rfl
@[simp] theorem State.keepOutput_axes (o : Line) (out : Output) (s : State) :
    (State.keepOutput o out s).axes = s.axes := rfl
@[simp] theorem State.keepOutput_views (o : Line) (out : Output) (s : State) :
    (State.keepOutput o out s).views = s.views := rfl
@[simp] theorem State.keepOutput_zones (o : Line) (out : Output) (s : State) :
    (State.keepOutput o out s).zones = s.zones := rfl
@[simp] theorem State.keepOutput_outputs (o : Line) (out : Output) (s : State) :
    (State.keepOutput o out s).outputs = s.outputs.put o out := rfl
@[simp] theorem State.keepOutput_drivers (o : Line) (out : Output) (s : State) :
    (State.keepOutput o out s).drivers = s.drivers := rfl
@[simp] theorem State.keepOutput_ohold (o : Line) (out : Output) (s : State) :
    (State.keepOutput o out s).ohold = s.ohold := rfl
@[simp] theorem State.keepOutput_queues (o : Line) (out : Output) (s : State) :
    (State.keepOutput o out s).queues = s.queues := rfl
@[simp] theorem State.keepOutput_triggers (o : Line) (out : Output) (s : State) :
    (State.keepOutput o out s).triggers = s.triggers := rfl
@[simp] theorem State.keepOutput_capture (o : Line) (out : Output) (s : State) :
    (State.keepOutput o out s).capture = s.capture := rfl
@[simp] theorem State.keepOutput_pool (o : Line) (out : Output) (s : State) :
    (State.keepOutput o out s).pool = s.pool := rfl
@[simp] theorem State.keepOutput_freeCount (o : Line) (out : Output) (s : State) :
    (State.keepOutput o out s).freeCount = s.freeCount := rfl

/-! ### `State.setOutput` -/

@[simp] theorem State.setOutput_pending (o : Line) (out : Output) (s : State) :
    (State.setOutput o out s).pending = s.pending := rfl
@[simp] theorem State.setOutput_rstn (o : Line) (out : Output) (s : State) :
    (State.setOutput o out s).rstn = s.rstn := rfl
@[simp] theorem State.setOutput_supplyOk (o : Line) (out : Output) (s : State) :
    (State.setOutput o out s).supplyOk = s.supplyOk := rfl
@[simp] theorem State.setOutput_timebase (o : Line) (out : Output) (s : State) :
    (State.setOutput o out s).timebase = s.timebase := rfl
@[simp] theorem State.setOutput_sinceTick (o : Line) (out : Output) (s : State) :
    (State.setOutput o out s).sinceTick = s.sinceTick := rfl
@[simp] theorem State.setOutput_starting (o : Line) (out : Output) (s : State) :
    (State.setOutput o out s).starting = s.starting := rfl
@[simp] theorem State.setOutput_ports (o : Line) (out : Output) (s : State) :
    (State.setOutput o out s).ports = s.ports := rfl
@[simp] theorem State.setOutput_axes (o : Line) (out : Output) (s : State) :
    (State.setOutput o out s).axes = s.axes := rfl
@[simp] theorem State.setOutput_views (o : Line) (out : Output) (s : State) :
    (State.setOutput o out s).views = s.views := rfl
@[simp] theorem State.setOutput_zones (o : Line) (out : Output) (s : State) :
    (State.setOutput o out s).zones = s.zones := rfl
@[simp] theorem State.setOutput_outputs (o : Line) (out : Output) (s : State) :
    (State.setOutput o out s).outputs = s.outputs.put o (out.recompute s.zones) := rfl
@[simp] theorem State.setOutput_ohold (o : Line) (out : Output) (s : State) :
    (State.setOutput o out s).ohold = s.ohold := rfl
@[simp] theorem State.setOutput_queues (o : Line) (out : Output) (s : State) :
    (State.setOutput o out s).queues = s.queues := rfl
@[simp] theorem State.setOutput_triggers (o : Line) (out : Output) (s : State) :
    (State.setOutput o out s).triggers = s.triggers := rfl
@[simp] theorem State.setOutput_capture (o : Line) (out : Output) (s : State) :
    (State.setOutput o out s).capture = s.capture := rfl
@[simp] theorem State.setOutput_pool (o : Line) (out : Output) (s : State) :
    (State.setOutput o out s).pool = s.pool := rfl
@[simp] theorem State.setOutput_freeCount (o : Line) (out : Output) (s : State) :
    (State.setOutput o out s).freeCount = s.freeCount := rfl

/-! ### `State.zoneClaim` -/

@[simp] theorem State.zoneClaim_pending (zs : Table 32 Slot) (f : ZoneId → Bool) (es : List (Port × Event)) (s : State) :
    (State.zoneClaim zs f es s).pending = s.pending := rfl
@[simp] theorem State.zoneClaim_rstn (zs : Table 32 Slot) (f : ZoneId → Bool) (es : List (Port × Event)) (s : State) :
    (State.zoneClaim zs f es s).rstn = s.rstn := rfl
@[simp] theorem State.zoneClaim_supplyOk (zs : Table 32 Slot) (f : ZoneId → Bool) (es : List (Port × Event)) (s : State) :
    (State.zoneClaim zs f es s).supplyOk = s.supplyOk := rfl
@[simp] theorem State.zoneClaim_timebase (zs : Table 32 Slot) (f : ZoneId → Bool) (es : List (Port × Event)) (s : State) :
    (State.zoneClaim zs f es s).timebase = s.timebase := rfl
@[simp] theorem State.zoneClaim_sinceTick (zs : Table 32 Slot) (f : ZoneId → Bool) (es : List (Port × Event)) (s : State) :
    (State.zoneClaim zs f es s).sinceTick = s.sinceTick := rfl
@[simp] theorem State.zoneClaim_starting (zs : Table 32 Slot) (f : ZoneId → Bool) (es : List (Port × Event)) (s : State) :
    (State.zoneClaim zs f es s).starting = s.starting := rfl
@[simp] theorem State.zoneClaim_ports (zs : Table 32 Slot) (f : ZoneId → Bool) (es : List (Port × Event)) (s : State) :
    (State.zoneClaim zs f es s).ports = s.ports := rfl
@[simp] theorem State.zoneClaim_axes (zs : Table 32 Slot) (f : ZoneId → Bool) (es : List (Port × Event)) (s : State) :
    (State.zoneClaim zs f es s).axes = s.axes := rfl
@[simp] theorem State.zoneClaim_views (zs : Table 32 Slot) (f : ZoneId → Bool) (es : List (Port × Event)) (s : State) :
    (State.zoneClaim zs f es s).views = s.views := rfl
@[simp] theorem State.zoneClaim_zones (zs : Table 32 Slot) (f : ZoneId → Bool) (es : List (Port × Event)) (s : State) :
    (State.zoneClaim zs f es s).zones = zs := rfl
@[simp] theorem State.zoneClaim_outputs (zs : Table 32 Slot) (f : ZoneId → Bool) (es : List (Port × Event)) (s : State) :
    (State.zoneClaim zs f es s).outputs = recomputed zs f s.outputs := rfl
@[simp] theorem State.zoneClaim_ohold (zs : Table 32 Slot) (f : ZoneId → Bool) (es : List (Port × Event)) (s : State) :
    (State.zoneClaim zs f es s).ohold = s.ohold := rfl
@[simp] theorem State.zoneClaim_queues (zs : Table 32 Slot) (f : ZoneId → Bool) (es : List (Port × Event)) (s : State) :
    (State.zoneClaim zs f es s).queues = s.queues.mapIdx fun p q => q.receive .zoneController (eventsFor p es) := rfl
@[simp] theorem State.zoneClaim_triggers (zs : Table 32 Slot) (f : ZoneId → Bool) (es : List (Port × Event)) (s : State) :
    (State.zoneClaim zs f es s).triggers = s.triggers := rfl
@[simp] theorem State.zoneClaim_capture (zs : Table 32 Slot) (f : ZoneId → Bool) (es : List (Port × Event)) (s : State) :
    (State.zoneClaim zs f es s).capture = s.capture := rfl
@[simp] theorem State.zoneClaim_pool (zs : Table 32 Slot) (f : ZoneId → Bool) (es : List (Port × Event)) (s : State) :
    (State.zoneClaim zs f es s).pool = s.pool := rfl
@[simp] theorem State.zoneClaim_freeCount (zs : Table 32 Slot) (f : ZoneId → Bool) (es : List (Port × Event)) (s : State) :
    (State.zoneClaim zs f es s).freeCount = s.freeCount := rfl

/-! ### `State.sendClaims` -/

@[simp] theorem State.sendClaims_pending (cs : List CaptureClaim) (s : State) :
    (State.sendClaims cs s).pending = s.pending := rfl
@[simp] theorem State.sendClaims_rstn (cs : List CaptureClaim) (s : State) :
    (State.sendClaims cs s).rstn = s.rstn := rfl
@[simp] theorem State.sendClaims_supplyOk (cs : List CaptureClaim) (s : State) :
    (State.sendClaims cs s).supplyOk = s.supplyOk := rfl
@[simp] theorem State.sendClaims_timebase (cs : List CaptureClaim) (s : State) :
    (State.sendClaims cs s).timebase = s.timebase := rfl
@[simp] theorem State.sendClaims_sinceTick (cs : List CaptureClaim) (s : State) :
    (State.sendClaims cs s).sinceTick = s.sinceTick := rfl
@[simp] theorem State.sendClaims_starting (cs : List CaptureClaim) (s : State) :
    (State.sendClaims cs s).starting = s.starting := rfl
@[simp] theorem State.sendClaims_ports (cs : List CaptureClaim) (s : State) :
    (State.sendClaims cs s).ports = s.ports := rfl
@[simp] theorem State.sendClaims_axes (cs : List CaptureClaim) (s : State) :
    (State.sendClaims cs s).axes = s.axes := rfl
@[simp] theorem State.sendClaims_views (cs : List CaptureClaim) (s : State) :
    (State.sendClaims cs s).views = s.views := rfl
@[simp] theorem State.sendClaims_zones (cs : List CaptureClaim) (s : State) :
    (State.sendClaims cs s).zones = s.zones := rfl
@[simp] theorem State.sendClaims_outputs (cs : List CaptureClaim) (s : State) :
    (State.sendClaims cs s).outputs = s.outputs := rfl
@[simp] theorem State.sendClaims_drivers (cs : List CaptureClaim) (s : State) :
    (State.sendClaims cs s).drivers = s.drivers := rfl
@[simp] theorem State.sendClaims_ohold (cs : List CaptureClaim) (s : State) :
    (State.sendClaims cs s).ohold = s.ohold := rfl
@[simp] theorem State.sendClaims_queues (cs : List CaptureClaim) (s : State) :
    (State.sendClaims cs s).queues = s.queues := rfl
@[simp] theorem State.sendClaims_triggers (cs : List CaptureClaim) (s : State) :
    (State.sendClaims cs s).triggers = s.triggers := rfl
@[simp] theorem State.sendClaims_capture (cs : List CaptureClaim) (s : State) :
    (State.sendClaims cs s).capture = { s.capture with waiting := s.capture.waiting ++ cs } := rfl
@[simp] theorem State.sendClaims_pool (cs : List CaptureClaim) (s : State) :
    (State.sendClaims cs s).pool = s.pool := rfl
@[simp] theorem State.sendClaims_freeCount (cs : List CaptureClaim) (s : State) :
    (State.sendClaims cs s).freeCount = s.freeCount := rfl

/-! ### `State.withOutbox` -/

@[simp] theorem State.withOutbox_pending (ax : Axis) (ms : List AxisMsg) (s : State) :
    (State.withOutbox ax ms s).pending = s.pending := rfl
@[simp] theorem State.withOutbox_rstn (ax : Axis) (ms : List AxisMsg) (s : State) :
    (State.withOutbox ax ms s).rstn = s.rstn := rfl
@[simp] theorem State.withOutbox_supplyOk (ax : Axis) (ms : List AxisMsg) (s : State) :
    (State.withOutbox ax ms s).supplyOk = s.supplyOk := rfl
@[simp] theorem State.withOutbox_timebase (ax : Axis) (ms : List AxisMsg) (s : State) :
    (State.withOutbox ax ms s).timebase = s.timebase := rfl
@[simp] theorem State.withOutbox_sinceTick (ax : Axis) (ms : List AxisMsg) (s : State) :
    (State.withOutbox ax ms s).sinceTick = s.sinceTick := rfl
@[simp] theorem State.withOutbox_starting (ax : Axis) (ms : List AxisMsg) (s : State) :
    (State.withOutbox ax ms s).starting = s.starting := rfl
@[simp] theorem State.withOutbox_ports (ax : Axis) (ms : List AxisMsg) (s : State) :
    (State.withOutbox ax ms s).ports = s.ports := rfl
@[simp] theorem State.withOutbox_axes (ax : Axis) (ms : List AxisMsg) (s : State) :
    (State.withOutbox ax ms s).axes = s.axes.put ax { s.axes.get ax with outbox := ms } := rfl
@[simp] theorem State.withOutbox_views (ax : Axis) (ms : List AxisMsg) (s : State) :
    (State.withOutbox ax ms s).views = s.views := rfl
@[simp] theorem State.withOutbox_zones (ax : Axis) (ms : List AxisMsg) (s : State) :
    (State.withOutbox ax ms s).zones = s.zones := rfl
@[simp] theorem State.withOutbox_outputs (ax : Axis) (ms : List AxisMsg) (s : State) :
    (State.withOutbox ax ms s).outputs = s.outputs := rfl
@[simp] theorem State.withOutbox_drivers (ax : Axis) (ms : List AxisMsg) (s : State) :
    (State.withOutbox ax ms s).drivers = s.drivers := rfl
@[simp] theorem State.withOutbox_ohold (ax : Axis) (ms : List AxisMsg) (s : State) :
    (State.withOutbox ax ms s).ohold = s.ohold := rfl
@[simp] theorem State.withOutbox_queues (ax : Axis) (ms : List AxisMsg) (s : State) :
    (State.withOutbox ax ms s).queues = s.queues := rfl
@[simp] theorem State.withOutbox_triggers (ax : Axis) (ms : List AxisMsg) (s : State) :
    (State.withOutbox ax ms s).triggers = s.triggers := rfl
@[simp] theorem State.withOutbox_capture (ax : Axis) (ms : List AxisMsg) (s : State) :
    (State.withOutbox ax ms s).capture = s.capture := rfl
@[simp] theorem State.withOutbox_pool (ax : Axis) (ms : List AxisMsg) (s : State) :
    (State.withOutbox ax ms s).pool = s.pool := rfl
@[simp] theorem State.withOutbox_freeCount (ax : Axis) (ms : List AxisMsg) (s : State) :
    (State.withOutbox ax ms s).freeCount = s.freeCount := rfl

/-! ### `State.endLease` -/

@[simp] theorem State.endLease_pending (o : Line) (c : Cause) (s : State) :
    (State.endLease o c s).pending = s.pending := rfl
@[simp] theorem State.endLease_rstn (o : Line) (c : Cause) (s : State) : (State.endLease o c s).rstn = s.rstn := rfl
@[simp] theorem State.endLease_supplyOk (o : Line) (c : Cause) (s : State) :
    (State.endLease o c s).supplyOk = s.supplyOk := rfl
@[simp] theorem State.endLease_timebase (o : Line) (c : Cause) (s : State) :
    (State.endLease o c s).timebase = s.timebase := rfl
@[simp] theorem State.endLease_sinceTick (o : Line) (c : Cause) (s : State) :
    (State.endLease o c s).sinceTick = s.sinceTick := rfl
@[simp] theorem State.endLease_starting (o : Line) (c : Cause) (s : State) :
    (State.endLease o c s).starting = s.starting := rfl
@[simp] theorem State.endLease_ports (o : Line) (c : Cause) (s : State) : (State.endLease o c s).ports = s.ports := rfl
@[simp] theorem State.endLease_axes (o : Line) (c : Cause) (s : State) : (State.endLease o c s).axes = s.axes := rfl
@[simp] theorem State.endLease_views (o : Line) (c : Cause) (s : State) : (State.endLease o c s).views = s.views := rfl
@[simp] theorem State.endLease_zones (o : Line) (c : Cause) (s : State) : (State.endLease o c s).zones = s.zones := rfl
@[simp] theorem State.endLease_ohold (o : Line) (c : Cause) (s : State) : (State.endLease o c s).ohold = s.ohold := rfl
@[simp] theorem State.endLease_triggers (o : Line) (c : Cause) (s : State) :
    (State.endLease o c s).triggers = s.triggers := rfl
@[simp] theorem State.endLease_capture (o : Line) (c : Cause) (s : State) :
    (State.endLease o c s).capture = s.capture := rfl
@[simp] theorem State.endLease_pool (o : Line) (c : Cause) (s : State) : (State.endLease o c s).pool = s.pool := rfl
@[simp] theorem State.endLease_freeCount (o : Line) (c : Cause) (s : State) :
    (State.endLease o c s).freeCount = s.freeCount := rfl

/-! ### `State.tickLeases` -/

@[simp] theorem State.tickLeases_pending (s : State) : (State.tickLeases s).pending = s.pending := rfl
@[simp] theorem State.tickLeases_rstn (s : State) : (State.tickLeases s).rstn = s.rstn := rfl
@[simp] theorem State.tickLeases_supplyOk (s : State) : (State.tickLeases s).supplyOk = s.supplyOk := rfl
@[simp] theorem State.tickLeases_timebase (s : State) : (State.tickLeases s).timebase = s.timebase := rfl
@[simp] theorem State.tickLeases_sinceTick (s : State) : (State.tickLeases s).sinceTick = s.sinceTick := rfl
@[simp] theorem State.tickLeases_starting (s : State) : (State.tickLeases s).starting = s.starting := rfl
@[simp] theorem State.tickLeases_ports (s : State) : (State.tickLeases s).ports = s.ports := rfl
@[simp] theorem State.tickLeases_axes (s : State) : (State.tickLeases s).axes = s.axes := rfl
@[simp] theorem State.tickLeases_views (s : State) : (State.tickLeases s).views = s.views := rfl
@[simp] theorem State.tickLeases_zones (s : State) : (State.tickLeases s).zones = s.zones := rfl
@[simp] theorem State.tickLeases_outputs (s : State) :
    (State.tickLeases s).outputs = s.outputs.mapIdx fun _ out => out.tick := rfl
@[simp] theorem State.tickLeases_drivers (s : State) : (State.tickLeases s).drivers = s.drivers := rfl
@[simp] theorem State.tickLeases_ohold (s : State) : (State.tickLeases s).ohold = s.ohold := rfl
@[simp] theorem State.tickLeases_queues (s : State) : (State.tickLeases s).queues = s.queues := rfl
@[simp] theorem State.tickLeases_triggers (s : State) : (State.tickLeases s).triggers = s.triggers := rfl
@[simp] theorem State.tickLeases_capture (s : State) : (State.tickLeases s).capture = s.capture := rfl
@[simp] theorem State.tickLeases_pool (s : State) : (State.tickLeases s).pool = s.pool := rfl
@[simp] theorem State.tickLeases_freeCount (s : State) : (State.tickLeases s).freeCount = s.freeCount := rfl

/-! ### `State.writeCapture` -/

@[simp] theorem State.writeCapture_pending (mk : Word → CaptureRecord) (s : State) :
    (State.writeCapture mk s).pending = s.pending := rfl
@[simp] theorem State.writeCapture_rstn (mk : Word → CaptureRecord) (s : State) :
    (State.writeCapture mk s).rstn = s.rstn := rfl
@[simp] theorem State.writeCapture_supplyOk (mk : Word → CaptureRecord) (s : State) :
    (State.writeCapture mk s).supplyOk = s.supplyOk := rfl
@[simp] theorem State.writeCapture_timebase (mk : Word → CaptureRecord) (s : State) :
    (State.writeCapture mk s).timebase = s.timebase := rfl
@[simp] theorem State.writeCapture_sinceTick (mk : Word → CaptureRecord) (s : State) :
    (State.writeCapture mk s).sinceTick = s.sinceTick := rfl
@[simp] theorem State.writeCapture_starting (mk : Word → CaptureRecord) (s : State) :
    (State.writeCapture mk s).starting = s.starting := rfl
@[simp] theorem State.writeCapture_ports (mk : Word → CaptureRecord) (s : State) :
    (State.writeCapture mk s).ports = s.ports := rfl
@[simp] theorem State.writeCapture_axes (mk : Word → CaptureRecord) (s : State) :
    (State.writeCapture mk s).axes = s.axes := rfl
@[simp] theorem State.writeCapture_views (mk : Word → CaptureRecord) (s : State) :
    (State.writeCapture mk s).views = s.views := rfl
@[simp] theorem State.writeCapture_zones (mk : Word → CaptureRecord) (s : State) :
    (State.writeCapture mk s).zones = s.zones := rfl
@[simp] theorem State.writeCapture_outputs (mk : Word → CaptureRecord) (s : State) :
    (State.writeCapture mk s).outputs = s.outputs := rfl
@[simp] theorem State.writeCapture_drivers (mk : Word → CaptureRecord) (s : State) :
    (State.writeCapture mk s).drivers = s.drivers := rfl
@[simp] theorem State.writeCapture_ohold (mk : Word → CaptureRecord) (s : State) :
    (State.writeCapture mk s).ohold = s.ohold := rfl
@[simp] theorem State.writeCapture_triggers (mk : Word → CaptureRecord) (s : State) :
    (State.writeCapture mk s).triggers = s.triggers := rfl
@[simp] theorem State.writeCapture_capture (mk : Word → CaptureRecord) (s : State) :
    (State.writeCapture mk s).capture = s.capture.write mk := rfl
@[simp] theorem State.writeCapture_pool (mk : Word → CaptureRecord) (s : State) :
    (State.writeCapture mk s).pool = s.pool := rfl
@[simp] theorem State.writeCapture_freeCount (mk : Word → CaptureRecord) (s : State) :
    (State.writeCapture mk s).freeCount = s.freeCount := rfl

/-! ### `State.spendFree` -/

@[simp] theorem State.spendFree_pending (r : List CaptureRecord) (s : State) :
    (State.spendFree r s).pending = s.pending := rfl
@[simp] theorem State.spendFree_rstn (r : List CaptureRecord) (s : State) : (State.spendFree r s).rstn = s.rstn := rfl
@[simp] theorem State.spendFree_supplyOk (r : List CaptureRecord) (s : State) :
    (State.spendFree r s).supplyOk = s.supplyOk := rfl
@[simp] theorem State.spendFree_timebase (r : List CaptureRecord) (s : State) :
    (State.spendFree r s).timebase = s.timebase := rfl
@[simp] theorem State.spendFree_sinceTick (r : List CaptureRecord) (s : State) :
    (State.spendFree r s).sinceTick = s.sinceTick := rfl
@[simp] theorem State.spendFree_starting (r : List CaptureRecord) (s : State) :
    (State.spendFree r s).starting = s.starting := rfl
@[simp] theorem State.spendFree_ports (r : List CaptureRecord) (s : State) :
    (State.spendFree r s).ports = s.ports := rfl
@[simp] theorem State.spendFree_axes (r : List CaptureRecord) (s : State) : (State.spendFree r s).axes = s.axes := rfl
@[simp] theorem State.spendFree_views (r : List CaptureRecord) (s : State) :
    (State.spendFree r s).views = s.views := rfl
@[simp] theorem State.spendFree_zones (r : List CaptureRecord) (s : State) :
    (State.spendFree r s).zones = s.zones := rfl
@[simp] theorem State.spendFree_outputs (r : List CaptureRecord) (s : State) :
    (State.spendFree r s).outputs = s.outputs := rfl
@[simp] theorem State.spendFree_drivers (r : List CaptureRecord) (s : State) :
    (State.spendFree r s).drivers = s.drivers := rfl
@[simp] theorem State.spendFree_ohold (r : List CaptureRecord) (s : State) :
    (State.spendFree r s).ohold = s.ohold := rfl
@[simp] theorem State.spendFree_queues (r : List CaptureRecord) (s : State) :
    (State.spendFree r s).queues = s.queues := rfl
@[simp] theorem State.spendFree_triggers (r : List CaptureRecord) (s : State) :
    (State.spendFree r s).triggers = s.triggers := rfl
@[simp] theorem State.spendFree_capture (r : List CaptureRecord) (s : State) :
    (State.spendFree r s).capture = s.capture := rfl
@[simp] theorem State.spendFree_pool (r : List CaptureRecord) (s : State) : (State.spendFree r s).pool = s.pool := rfl

/-! ### `State.clockOut` -/

@[simp] theorem State.clockOut_pending (p : Port) (b : List Byte) (s : State) :
    (State.clockOut p b s).pending = s.pending := rfl
@[simp] theorem State.clockOut_rstn (p : Port) (b : List Byte) (s : State) : (State.clockOut p b s).rstn = s.rstn := rfl
@[simp] theorem State.clockOut_supplyOk (p : Port) (b : List Byte) (s : State) :
    (State.clockOut p b s).supplyOk = s.supplyOk := rfl
@[simp] theorem State.clockOut_timebase (p : Port) (b : List Byte) (s : State) :
    (State.clockOut p b s).timebase = s.timebase := rfl
@[simp] theorem State.clockOut_sinceTick (p : Port) (b : List Byte) (s : State) :
    (State.clockOut p b s).sinceTick = s.sinceTick := rfl
@[simp] theorem State.clockOut_starting (p : Port) (b : List Byte) (s : State) :
    (State.clockOut p b s).starting = s.starting := rfl
@[simp] theorem State.clockOut_ports (p : Port) (b : List Byte) (s : State) :
    (State.clockOut p b s).ports = s.ports.put p { s.ports.get p with miso := b } := rfl
@[simp] theorem State.clockOut_axes (p : Port) (b : List Byte) (s : State) : (State.clockOut p b s).axes = s.axes := rfl
@[simp] theorem State.clockOut_views (p : Port) (b : List Byte) (s : State) :
    (State.clockOut p b s).views = s.views := rfl
@[simp] theorem State.clockOut_zones (p : Port) (b : List Byte) (s : State) :
    (State.clockOut p b s).zones = s.zones := rfl
@[simp] theorem State.clockOut_outputs (p : Port) (b : List Byte) (s : State) :
    (State.clockOut p b s).outputs = s.outputs := rfl
@[simp] theorem State.clockOut_drivers (p : Port) (b : List Byte) (s : State) :
    (State.clockOut p b s).drivers = s.drivers := rfl
@[simp] theorem State.clockOut_ohold (p : Port) (b : List Byte) (s : State) :
    (State.clockOut p b s).ohold = s.ohold := rfl
@[simp] theorem State.clockOut_queues (p : Port) (b : List Byte) (s : State) :
    (State.clockOut p b s).queues = s.queues := rfl
@[simp] theorem State.clockOut_triggers (p : Port) (b : List Byte) (s : State) :
    (State.clockOut p b s).triggers = s.triggers := rfl
@[simp] theorem State.clockOut_capture (p : Port) (b : List Byte) (s : State) :
    (State.clockOut p b s).capture = s.capture := rfl
@[simp] theorem State.clockOut_pool (p : Port) (b : List Byte) (s : State) : (State.clockOut p b s).pool = s.pool := rfl
@[simp] theorem State.clockOut_freeCount (p : Port) (b : List Byte) (s : State) :
    (State.clockOut p b s).freeCount = s.freeCount := rfl

/-! ### `State.flagDiscard` -/

@[simp] theorem State.flagDiscard_pending (p : Port) (s : State) : (State.flagDiscard p s).pending = s.pending := rfl
@[simp] theorem State.flagDiscard_rstn (p : Port) (s : State) : (State.flagDiscard p s).rstn = s.rstn := rfl
@[simp] theorem State.flagDiscard_supplyOk (p : Port) (s : State) : (State.flagDiscard p s).supplyOk = s.supplyOk := rfl
@[simp] theorem State.flagDiscard_timebase (p : Port) (s : State) : (State.flagDiscard p s).timebase = s.timebase := rfl
@[simp] theorem State.flagDiscard_sinceTick (p : Port) (s : State) :
    (State.flagDiscard p s).sinceTick = s.sinceTick := rfl
@[simp] theorem State.flagDiscard_starting (p : Port) (s : State) : (State.flagDiscard p s).starting = s.starting := rfl
@[simp] theorem State.flagDiscard_ports (p : Port) (s : State) :
    (State.flagDiscard p s).ports = s.ports.put p { s.ports.get p with frameDiscarded := true } := rfl
@[simp] theorem State.flagDiscard_axes (p : Port) (s : State) : (State.flagDiscard p s).axes = s.axes := rfl
@[simp] theorem State.flagDiscard_views (p : Port) (s : State) : (State.flagDiscard p s).views = s.views := rfl
@[simp] theorem State.flagDiscard_zones (p : Port) (s : State) : (State.flagDiscard p s).zones = s.zones := rfl
@[simp] theorem State.flagDiscard_outputs (p : Port) (s : State) : (State.flagDiscard p s).outputs = s.outputs := rfl
@[simp] theorem State.flagDiscard_drivers (p : Port) (s : State) : (State.flagDiscard p s).drivers = s.drivers := rfl
@[simp] theorem State.flagDiscard_ohold (p : Port) (s : State) : (State.flagDiscard p s).ohold = s.ohold := rfl
@[simp] theorem State.flagDiscard_queues (p : Port) (s : State) : (State.flagDiscard p s).queues = s.queues := rfl
@[simp] theorem State.flagDiscard_triggers (p : Port) (s : State) : (State.flagDiscard p s).triggers = s.triggers := rfl
@[simp] theorem State.flagDiscard_capture (p : Port) (s : State) : (State.flagDiscard p s).capture = s.capture := rfl
@[simp] theorem State.flagDiscard_pool (p : Port) (s : State) : (State.flagDiscard p s).pool = s.pool := rfl
@[simp] theorem State.flagDiscard_freeCount (p : Port) (s : State) :
    (State.flagDiscard p s).freeCount = s.freeCount := rfl

/-! ### `State.respond` -/

@[simp] theorem State.respond_pending (p : Port) (code tag : Byte) (note : Bool) (a : Answer) (s : State) :
    (State.respond p code tag note a s).pending = s.pending := rfl
@[simp] theorem State.respond_rstn (p : Port) (code tag : Byte) (note : Bool) (a : Answer) (s : State) :
    (State.respond p code tag note a s).rstn = s.rstn := rfl
@[simp] theorem State.respond_supplyOk (p : Port) (code tag : Byte) (note : Bool) (a : Answer) (s : State) :
    (State.respond p code tag note a s).supplyOk = s.supplyOk := rfl
@[simp] theorem State.respond_timebase (p : Port) (code tag : Byte) (note : Bool) (a : Answer) (s : State) :
    (State.respond p code tag note a s).timebase = s.timebase := rfl
@[simp] theorem State.respond_sinceTick (p : Port) (code tag : Byte) (note : Bool) (a : Answer) (s : State) :
    (State.respond p code tag note a s).sinceTick = s.sinceTick := rfl
@[simp] theorem State.respond_starting (p : Port) (code tag : Byte) (note : Bool) (a : Answer) (s : State) :
    (State.respond p code tag note a s).starting = s.starting := rfl
@[simp] theorem State.respond_ports (p : Port) (code tag : Byte) (note : Bool) (a : Answer) (s : State) :
    (State.respond p code tag note a s).ports = s.ports.put p { s.ports.get p with slot := .answerReady ⟨code, tag, a.result, note, a.payload⟩ } := rfl
@[simp] theorem State.respond_axes (p : Port) (code tag : Byte) (note : Bool) (a : Answer) (s : State) :
    (State.respond p code tag note a s).axes = s.axes := rfl
@[simp] theorem State.respond_views (p : Port) (code tag : Byte) (note : Bool) (a : Answer) (s : State) :
    (State.respond p code tag note a s).views = s.views := rfl
@[simp] theorem State.respond_zones (p : Port) (code tag : Byte) (note : Bool) (a : Answer) (s : State) :
    (State.respond p code tag note a s).zones = s.zones := rfl
@[simp] theorem State.respond_outputs (p : Port) (code tag : Byte) (note : Bool) (a : Answer) (s : State) :
    (State.respond p code tag note a s).outputs = s.outputs := rfl
@[simp] theorem State.respond_drivers (p : Port) (code tag : Byte) (note : Bool) (a : Answer) (s : State) :
    (State.respond p code tag note a s).drivers = s.drivers := rfl
@[simp] theorem State.respond_ohold (p : Port) (code tag : Byte) (note : Bool) (a : Answer) (s : State) :
    (State.respond p code tag note a s).ohold = s.ohold := rfl
@[simp] theorem State.respond_queues (p : Port) (code tag : Byte) (note : Bool) (a : Answer) (s : State) :
    (State.respond p code tag note a s).queues = s.queues := rfl
@[simp] theorem State.respond_triggers (p : Port) (code tag : Byte) (note : Bool) (a : Answer) (s : State) :
    (State.respond p code tag note a s).triggers = s.triggers := rfl
@[simp] theorem State.respond_capture (p : Port) (code tag : Byte) (note : Bool) (a : Answer) (s : State) :
    (State.respond p code tag note a s).capture = s.capture := rfl
@[simp] theorem State.respond_pool (p : Port) (code tag : Byte) (note : Bool) (a : Answer) (s : State) :
    (State.respond p code tag note a s).pool = s.pool := rfl
@[simp] theorem State.respond_freeCount (p : Port) (code tag : Byte) (note : Bool) (a : Answer) (s : State) :
    (State.respond p code tag note a s).freeCount = s.freeCount := rfl

/-! ### `State.dispatch` -/

@[simp] theorem State.dispatch_pending (p : Port) (code tag : Byte) (note : Bool) (r : Request) (s : State) :
    (State.dispatch p code tag note r s).pending = s.pending := rfl
@[simp] theorem State.dispatch_rstn (p : Port) (code tag : Byte) (note : Bool) (r : Request) (s : State) :
    (State.dispatch p code tag note r s).rstn = s.rstn := rfl
@[simp] theorem State.dispatch_supplyOk (p : Port) (code tag : Byte) (note : Bool) (r : Request) (s : State) :
    (State.dispatch p code tag note r s).supplyOk = s.supplyOk := rfl
@[simp] theorem State.dispatch_timebase (p : Port) (code tag : Byte) (note : Bool) (r : Request) (s : State) :
    (State.dispatch p code tag note r s).timebase = s.timebase := rfl
@[simp] theorem State.dispatch_sinceTick (p : Port) (code tag : Byte) (note : Bool) (r : Request) (s : State) :
    (State.dispatch p code tag note r s).sinceTick = s.sinceTick := rfl
@[simp] theorem State.dispatch_starting (p : Port) (code tag : Byte) (note : Bool) (r : Request) (s : State) :
    (State.dispatch p code tag note r s).starting = s.starting := rfl
@[simp] theorem State.dispatch_axes (p : Port) (code tag : Byte) (note : Bool) (r : Request) (s : State) :
    (State.dispatch p code tag note r s).axes = s.axes := rfl
@[simp] theorem State.dispatch_views (p : Port) (code tag : Byte) (note : Bool) (r : Request) (s : State) :
    (State.dispatch p code tag note r s).views = s.views := rfl
@[simp] theorem State.dispatch_zones (p : Port) (code tag : Byte) (note : Bool) (r : Request) (s : State) :
    (State.dispatch p code tag note r s).zones = s.zones := rfl
@[simp] theorem State.dispatch_outputs (p : Port) (code tag : Byte) (note : Bool) (r : Request) (s : State) :
    (State.dispatch p code tag note r s).outputs = s.outputs := rfl
@[simp] theorem State.dispatch_drivers (p : Port) (code tag : Byte) (note : Bool) (r : Request) (s : State) :
    (State.dispatch p code tag note r s).drivers = s.drivers := rfl
@[simp] theorem State.dispatch_ohold (p : Port) (code tag : Byte) (note : Bool) (r : Request) (s : State) :
    (State.dispatch p code tag note r s).ohold = s.ohold := rfl
@[simp] theorem State.dispatch_queues (p : Port) (code tag : Byte) (note : Bool) (r : Request) (s : State) :
    (State.dispatch p code tag note r s).queues = s.queues := rfl
@[simp] theorem State.dispatch_triggers (p : Port) (code tag : Byte) (note : Bool) (r : Request) (s : State) :
    (State.dispatch p code tag note r s).triggers = s.triggers := rfl
@[simp] theorem State.dispatch_capture (p : Port) (code tag : Byte) (note : Bool) (r : Request) (s : State) :
    (State.dispatch p code tag note r s).capture = s.capture := rfl
@[simp] theorem State.dispatch_pool (p : Port) (code tag : Byte) (note : Bool) (r : Request) (s : State) :
    (State.dispatch p code tag note r s).pool = s.pool := rfl
@[simp] theorem State.dispatch_freeCount (p : Port) (code tag : Byte) (note : Bool) (r : Request) (s : State) :
    (State.dispatch p code tag note r s).freeCount = s.freeCount := rfl

/-! ### `State.openedSession` -/

@[simp] theorem State.openedSession_pending (p : Port) (s : State) :
    (State.openedSession p s).pending = s.pending := rfl
@[simp] theorem State.openedSession_rstn (p : Port) (s : State) : (State.openedSession p s).rstn = s.rstn := rfl
@[simp] theorem State.openedSession_supplyOk (p : Port) (s : State) :
    (State.openedSession p s).supplyOk = s.supplyOk := rfl
@[simp] theorem State.openedSession_timebase (p : Port) (s : State) :
    (State.openedSession p s).timebase = s.timebase := rfl
@[simp] theorem State.openedSession_sinceTick (p : Port) (s : State) :
    (State.openedSession p s).sinceTick = s.sinceTick := rfl
@[simp] theorem State.openedSession_starting (p : Port) (s : State) :
    (State.openedSession p s).starting = s.starting := rfl
@[simp] theorem State.openedSession_axes (p : Port) (s : State) : (State.openedSession p s).axes = s.axes := rfl
@[simp] theorem State.openedSession_views (p : Port) (s : State) : (State.openedSession p s).views = s.views := rfl
@[simp] theorem State.openedSession_zones (p : Port) (s : State) : (State.openedSession p s).zones = s.zones := rfl
@[simp] theorem State.openedSession_outputs (p : Port) (s : State) :
    (State.openedSession p s).outputs = s.outputs := rfl
@[simp] theorem State.openedSession_drivers (p : Port) (s : State) :
    (State.openedSession p s).drivers = s.drivers := rfl
@[simp] theorem State.openedSession_ohold (p : Port) (s : State) : (State.openedSession p s).ohold = s.ohold := rfl
@[simp] theorem State.openedSession_triggers (p : Port) (s : State) :
    (State.openedSession p s).triggers = s.triggers := rfl
@[simp] theorem State.openedSession_capture (p : Port) (s : State) :
    (State.openedSession p s).capture = s.capture := rfl
@[simp] theorem State.openedSession_pool (p : Port) (s : State) : (State.openedSession p s).pool = s.pool := rfl
@[simp] theorem State.openedSession_freeCount (p : Port) (s : State) :
    (State.openedSession p s).freeCount = s.freeCount := rfl

/-! ### `State.closeAccepted` -/

@[simp] theorem State.closeAccepted_pending (p : Port) (code tag : Byte) (note : Bool) (s : State) :
    (State.closeAccepted p code tag note s).pending = s.pending := rfl
@[simp] theorem State.closeAccepted_rstn (p : Port) (code tag : Byte) (note : Bool) (s : State) :
    (State.closeAccepted p code tag note s).rstn = s.rstn := rfl
@[simp] theorem State.closeAccepted_supplyOk (p : Port) (code tag : Byte) (note : Bool) (s : State) :
    (State.closeAccepted p code tag note s).supplyOk = s.supplyOk := rfl
@[simp] theorem State.closeAccepted_timebase (p : Port) (code tag : Byte) (note : Bool) (s : State) :
    (State.closeAccepted p code tag note s).timebase = s.timebase := rfl
@[simp] theorem State.closeAccepted_sinceTick (p : Port) (code tag : Byte) (note : Bool) (s : State) :
    (State.closeAccepted p code tag note s).sinceTick = s.sinceTick := rfl
@[simp] theorem State.closeAccepted_starting (p : Port) (code tag : Byte) (note : Bool) (s : State) :
    (State.closeAccepted p code tag note s).starting = s.starting := rfl
@[simp] theorem State.closeAccepted_axes (p : Port) (code tag : Byte) (note : Bool) (s : State) :
    (State.closeAccepted p code tag note s).axes = s.axes := rfl
@[simp] theorem State.closeAccepted_views (p : Port) (code tag : Byte) (note : Bool) (s : State) :
    (State.closeAccepted p code tag note s).views = s.views := rfl
@[simp] theorem State.closeAccepted_zones (p : Port) (code tag : Byte) (note : Bool) (s : State) :
    (State.closeAccepted p code tag note s).zones = s.zones := rfl
@[simp] theorem State.closeAccepted_outputs (p : Port) (code tag : Byte) (note : Bool) (s : State) :
    (State.closeAccepted p code tag note s).outputs = s.outputs := rfl
@[simp] theorem State.closeAccepted_drivers (p : Port) (code tag : Byte) (note : Bool) (s : State) :
    (State.closeAccepted p code tag note s).drivers = s.drivers := rfl
@[simp] theorem State.closeAccepted_ohold (p : Port) (code tag : Byte) (note : Bool) (s : State) :
    (State.closeAccepted p code tag note s).ohold = s.ohold := rfl
@[simp] theorem State.closeAccepted_triggers (p : Port) (code tag : Byte) (note : Bool) (s : State) :
    (State.closeAccepted p code tag note s).triggers = s.triggers := rfl
@[simp] theorem State.closeAccepted_capture (p : Port) (code tag : Byte) (note : Bool) (s : State) :
    (State.closeAccepted p code tag note s).capture = s.capture := rfl
@[simp] theorem State.closeAccepted_pool (p : Port) (code tag : Byte) (note : Bool) (s : State) :
    (State.closeAccepted p code tag note s).pool = s.pool := rfl
@[simp] theorem State.closeAccepted_freeCount (p : Port) (code tag : Byte) (note : Bool) (s : State) :
    (State.closeAccepted p code tag note s).freeCount = s.freeCount := rfl

/-! ### `State.toStage` -/

@[simp] theorem State.toStage_pending (p : Port) (st : Stage) (s : State) :
    (State.toStage p st s).pending = s.pending := rfl
@[simp] theorem State.toStage_rstn (p : Port) (st : Stage) (s : State) : (State.toStage p st s).rstn = s.rstn := rfl
@[simp] theorem State.toStage_supplyOk (p : Port) (st : Stage) (s : State) :
    (State.toStage p st s).supplyOk = s.supplyOk := rfl
@[simp] theorem State.toStage_timebase (p : Port) (st : Stage) (s : State) :
    (State.toStage p st s).timebase = s.timebase := rfl
@[simp] theorem State.toStage_sinceTick (p : Port) (st : Stage) (s : State) :
    (State.toStage p st s).sinceTick = s.sinceTick := rfl
@[simp] theorem State.toStage_starting (p : Port) (st : Stage) (s : State) :
    (State.toStage p st s).starting = s.starting := rfl
@[simp] theorem State.toStage_ports (p : Port) (st : Stage) (s : State) :
    (State.toStage p st s).ports = s.ports.put p { s.ports.get p with session := .closing st } := rfl
@[simp] theorem State.toStage_axes (p : Port) (st : Stage) (s : State) : (State.toStage p st s).axes = s.axes := rfl
@[simp] theorem State.toStage_views (p : Port) (st : Stage) (s : State) : (State.toStage p st s).views = s.views := rfl
@[simp] theorem State.toStage_zones (p : Port) (st : Stage) (s : State) : (State.toStage p st s).zones = s.zones := rfl
@[simp] theorem State.toStage_outputs (p : Port) (st : Stage) (s : State) :
    (State.toStage p st s).outputs = s.outputs := rfl
@[simp] theorem State.toStage_drivers (p : Port) (st : Stage) (s : State) :
    (State.toStage p st s).drivers = s.drivers := rfl
@[simp] theorem State.toStage_ohold (p : Port) (st : Stage) (s : State) : (State.toStage p st s).ohold = s.ohold := rfl
@[simp] theorem State.toStage_queues (p : Port) (st : Stage) (s : State) :
    (State.toStage p st s).queues = s.queues := rfl
@[simp] theorem State.toStage_triggers (p : Port) (st : Stage) (s : State) :
    (State.toStage p st s).triggers = s.triggers := rfl
@[simp] theorem State.toStage_capture (p : Port) (st : Stage) (s : State) :
    (State.toStage p st s).capture = s.capture := rfl
@[simp] theorem State.toStage_pool (p : Port) (st : Stage) (s : State) : (State.toStage p st s).pool = s.pool := rfl
@[simp] theorem State.toStage_freeCount (p : Port) (st : Stage) (s : State) :
    (State.toStage p st s).freeCount = s.freeCount := rfl

/-! ### `State.passTime` -/

@[simp] theorem State.passTime_pending (n : Nat) (s : State) : (State.passTime n s).pending = s.pending := rfl
@[simp] theorem State.passTime_rstn (n : Nat) (s : State) : (State.passTime n s).rstn = s.rstn := rfl
@[simp] theorem State.passTime_supplyOk (n : Nat) (s : State) : (State.passTime n s).supplyOk = s.supplyOk := rfl
@[simp] theorem State.passTime_timebase (n : Nat) (s : State) :
    (State.passTime n s).timebase = s.timebase + BitVec.ofNat 32 n := rfl
@[simp] theorem State.passTime_sinceTick (n : Nat) (s : State) : (State.passTime n s).sinceTick = s.sinceTick := rfl
@[simp] theorem State.passTime_starting (n : Nat) (s : State) :
    (State.passTime n s).starting = (s.starting && decide (s.timebase.toNat + n < Config.startUpEnd)) := rfl
@[simp] theorem State.passTime_ports (n : Nat) (s : State) : (State.passTime n s).ports = s.ports := rfl
@[simp] theorem State.passTime_axes (n : Nat) (s : State) : (State.passTime n s).axes = s.axes := rfl
@[simp] theorem State.passTime_views (n : Nat) (s : State) : (State.passTime n s).views = s.views := rfl
@[simp] theorem State.passTime_zones (n : Nat) (s : State) : (State.passTime n s).zones = s.zones := rfl
@[simp] theorem State.passTime_outputs (n : Nat) (s : State) : (State.passTime n s).outputs = s.outputs := rfl
@[simp] theorem State.passTime_drivers (n : Nat) (s : State) : (State.passTime n s).drivers = s.drivers := rfl
@[simp] theorem State.passTime_ohold (n : Nat) (s : State) : (State.passTime n s).ohold = s.ohold := rfl
@[simp] theorem State.passTime_queues (n : Nat) (s : State) : (State.passTime n s).queues = s.queues := rfl
@[simp] theorem State.passTime_triggers (n : Nat) (s : State) : (State.passTime n s).triggers = s.triggers := rfl
@[simp] theorem State.passTime_capture (n : Nat) (s : State) : (State.passTime n s).capture = s.capture := rfl
@[simp] theorem State.passTime_pool (n : Nat) (s : State) : (State.passTime n s).pool = s.pool := rfl
@[simp] theorem State.passTime_freeCount (n : Nat) (s : State) : (State.passTime n s).freeCount = s.freeCount := rfl

/-! ### `State.tick` -/

@[simp] theorem State.tick_pending (s : State) : (State.tick s).pending = s.pending := rfl
@[simp] theorem State.tick_rstn (s : State) : (State.tick s).rstn = s.rstn := rfl
@[simp] theorem State.tick_supplyOk (s : State) : (State.tick s).supplyOk = s.supplyOk := rfl
@[simp] theorem State.tick_sinceTick (s : State) : (State.tick s).sinceTick = 0 := rfl
@[simp] theorem State.tick_ports (s : State) : (State.tick s).ports = s.ports := rfl
@[simp] theorem State.tick_axes (s : State) : (State.tick s).axes = s.axes := rfl
@[simp] theorem State.tick_views (s : State) : (State.tick s).views = s.views := rfl
@[simp] theorem State.tick_zones (s : State) : (State.tick s).zones = s.zones := rfl
@[simp] theorem State.tick_outputs (s : State) : (State.tick s).outputs = s.outputs.mapIdx fun _ out => out.tick := rfl
@[simp] theorem State.tick_drivers (s : State) : (State.tick s).drivers = s.drivers := rfl
@[simp] theorem State.tick_ohold (s : State) : (State.tick s).ohold = s.ohold := rfl
@[simp] theorem State.tick_queues (s : State) : (State.tick s).queues = s.queues := rfl
@[simp] theorem State.tick_triggers (s : State) : (State.tick s).triggers = s.triggers := rfl
@[simp] theorem State.tick_capture (s : State) : (State.tick s).capture = s.capture := rfl
@[simp] theorem State.tick_pool (s : State) : (State.tick s).pool = s.pool := rfl
@[simp] theorem State.tick_freeCount (s : State) : (State.tick s).freeCount = s.freeCount := rfl

/-! ### `startTeardown` -/

@[simp] theorem startTeardown_pending (p : Port) (s : State) : (startTeardown p s).pending = s.pending := rfl
@[simp] theorem startTeardown_rstn (p : Port) (s : State) : (startTeardown p s).rstn = s.rstn := rfl
@[simp] theorem startTeardown_supplyOk (p : Port) (s : State) : (startTeardown p s).supplyOk = s.supplyOk := rfl
@[simp] theorem startTeardown_timebase (p : Port) (s : State) : (startTeardown p s).timebase = s.timebase := rfl
@[simp] theorem startTeardown_sinceTick (p : Port) (s : State) : (startTeardown p s).sinceTick = s.sinceTick := rfl
@[simp] theorem startTeardown_starting (p : Port) (s : State) : (startTeardown p s).starting = s.starting := rfl
@[simp] theorem startTeardown_axes (p : Port) (s : State) : (startTeardown p s).axes = s.axes := rfl
@[simp] theorem startTeardown_views (p : Port) (s : State) : (startTeardown p s).views = s.views := rfl
@[simp] theorem startTeardown_zones (p : Port) (s : State) : (startTeardown p s).zones = s.zones := rfl
@[simp] theorem startTeardown_outputs (p : Port) (s : State) : (startTeardown p s).outputs = s.outputs := rfl
@[simp] theorem startTeardown_drivers (p : Port) (s : State) : (startTeardown p s).drivers = s.drivers := rfl
@[simp] theorem startTeardown_ohold (p : Port) (s : State) : (startTeardown p s).ohold = s.ohold := rfl
@[simp] theorem startTeardown_triggers (p : Port) (s : State) : (startTeardown p s).triggers = s.triggers := rfl
@[simp] theorem startTeardown_capture (p : Port) (s : State) : (startTeardown p s).capture = s.capture := rfl
@[simp] theorem startTeardown_pool (p : Port) (s : State) : (startTeardown p s).pool = s.pool := rfl
@[simp] theorem startTeardown_freeCount (p : Port) (s : State) : (startTeardown p s).freeCount = s.freeCount := rfl

/-! ### `relayTearDown` -/

@[simp] theorem relayTearDown_pending (p : Port) (s : State) : (relayTearDown p s).pending = s.pending := rfl
@[simp] theorem relayTearDown_rstn (p : Port) (s : State) : (relayTearDown p s).rstn = s.rstn := rfl
@[simp] theorem relayTearDown_supplyOk (p : Port) (s : State) : (relayTearDown p s).supplyOk = s.supplyOk := rfl
@[simp] theorem relayTearDown_timebase (p : Port) (s : State) : (relayTearDown p s).timebase = s.timebase := rfl
@[simp] theorem relayTearDown_sinceTick (p : Port) (s : State) : (relayTearDown p s).sinceTick = s.sinceTick := rfl
@[simp] theorem relayTearDown_starting (p : Port) (s : State) : (relayTearDown p s).starting = s.starting := rfl
@[simp] theorem relayTearDown_ports (p : Port) (s : State) : (relayTearDown p s).ports = s.ports := rfl
@[simp] theorem relayTearDown_axes (p : Port) (s : State) : (relayTearDown p s).axes = s.axes := rfl
@[simp] theorem relayTearDown_views (p : Port) (s : State) : (relayTearDown p s).views = s.views := rfl
@[simp] theorem relayTearDown_zones (p : Port) (s : State) : (relayTearDown p s).zones = s.zones := rfl
@[simp] theorem relayTearDown_outputs (p : Port) (s : State) : (relayTearDown p s).outputs = s.outputs := rfl
@[simp] theorem relayTearDown_drivers (p : Port) (s : State) : (relayTearDown p s).drivers = s.drivers := rfl
@[simp] theorem relayTearDown_ohold (p : Port) (s : State) : (relayTearDown p s).ohold = s.ohold := rfl
@[simp] theorem relayTearDown_triggers (p : Port) (s : State) : (relayTearDown p s).triggers = s.triggers := rfl
@[simp] theorem relayTearDown_capture (p : Port) (s : State) : (relayTearDown p s).capture = s.capture := rfl
@[simp] theorem relayTearDown_freeCount (p : Port) (s : State) : (relayTearDown p s).freeCount = s.freeCount := rfl

/-! ### `captureTearDown` -/

@[simp] theorem captureTearDown_pending (p : Port) (s : State) : (captureTearDown p s).pending = s.pending := rfl
@[simp] theorem captureTearDown_rstn (p : Port) (s : State) : (captureTearDown p s).rstn = s.rstn := rfl
@[simp] theorem captureTearDown_supplyOk (p : Port) (s : State) : (captureTearDown p s).supplyOk = s.supplyOk := rfl
@[simp] theorem captureTearDown_timebase (p : Port) (s : State) : (captureTearDown p s).timebase = s.timebase := rfl
@[simp] theorem captureTearDown_sinceTick (p : Port) (s : State) : (captureTearDown p s).sinceTick = s.sinceTick := rfl
@[simp] theorem captureTearDown_starting (p : Port) (s : State) : (captureTearDown p s).starting = s.starting := rfl
@[simp] theorem captureTearDown_ports (p : Port) (s : State) : (captureTearDown p s).ports = s.ports := rfl
@[simp] theorem captureTearDown_axes (p : Port) (s : State) : (captureTearDown p s).axes = s.axes := rfl
@[simp] theorem captureTearDown_views (p : Port) (s : State) : (captureTearDown p s).views = s.views := rfl
@[simp] theorem captureTearDown_zones (p : Port) (s : State) : (captureTearDown p s).zones = s.zones := rfl
@[simp] theorem captureTearDown_outputs (p : Port) (s : State) : (captureTearDown p s).outputs = s.outputs := rfl
@[simp] theorem captureTearDown_drivers (p : Port) (s : State) : (captureTearDown p s).drivers = s.drivers := rfl
@[simp] theorem captureTearDown_ohold (p : Port) (s : State) : (captureTearDown p s).ohold = s.ohold := rfl
@[simp] theorem captureTearDown_queues (p : Port) (s : State) : (captureTearDown p s).queues = s.queues := rfl
@[simp] theorem captureTearDown_triggers (p : Port) (s : State) :
    (captureTearDown p s).triggers = s.triggers.mapIdx fun _ t => t.tearDown p := rfl
@[simp] theorem captureTearDown_capture (p : Port) (s : State) :
    (captureTearDown p s).capture = { s.capture with cursors := s.capture.cursors.put p none } := rfl
@[simp] theorem captureTearDown_pool (p : Port) (s : State) : (captureTearDown p s).pool = s.pool := rfl
@[simp] theorem captureTearDown_freeCount (p : Port) (s : State) : (captureTearDown p s).freeCount = s.freeCount := rfl

/-! ### `zoneTearDown` -/

@[simp] theorem zoneTearDown_pending (p : Port) (s : State) :
    (zoneTearDown p s).pending = s.pending := by simp [zoneTearDown]
@[simp] theorem zoneTearDown_rstn (p : Port) (s : State) : (zoneTearDown p s).rstn = s.rstn := by simp [zoneTearDown]
@[simp] theorem zoneTearDown_supplyOk (p : Port) (s : State) :
    (zoneTearDown p s).supplyOk = s.supplyOk := by simp [zoneTearDown]
@[simp] theorem zoneTearDown_timebase (p : Port) (s : State) :
    (zoneTearDown p s).timebase = s.timebase := by simp [zoneTearDown]
@[simp] theorem zoneTearDown_sinceTick (p : Port) (s : State) :
    (zoneTearDown p s).sinceTick = s.sinceTick := by simp [zoneTearDown]
@[simp] theorem zoneTearDown_starting (p : Port) (s : State) :
    (zoneTearDown p s).starting = s.starting := by simp [zoneTearDown]
@[simp] theorem zoneTearDown_ports (p : Port) (s : State) : (zoneTearDown p s).ports = s.ports := by simp [zoneTearDown]
@[simp] theorem zoneTearDown_axes (p : Port) (s : State) : (zoneTearDown p s).axes = s.axes := by simp [zoneTearDown]
@[simp] theorem zoneTearDown_views (p : Port) (s : State) : (zoneTearDown p s).views = s.views := by simp [zoneTearDown]
@[simp] theorem zoneTearDown_zones (p : Port) (s : State) :
    (zoneTearDown p s).zones = s.zones.mapIdx fun _ sl => sl.tearDown p := by simp [zoneTearDown]
@[simp] theorem zoneTearDown_ohold (p : Port) (s : State) : (zoneTearDown p s).ohold = s.ohold := by simp [zoneTearDown]
@[simp] theorem zoneTearDown_triggers (p : Port) (s : State) :
    (zoneTearDown p s).triggers = s.triggers := by simp [zoneTearDown]
@[simp] theorem zoneTearDown_capture (p : Port) (s : State) :
    (zoneTearDown p s).capture = s.capture := by simp [zoneTearDown]
@[simp] theorem zoneTearDown_pool (p : Port) (s : State) : (zoneTearDown p s).pool = s.pool := by simp [zoneTearDown]
@[simp] theorem zoneTearDown_freeCount (p : Port) (s : State) :
    (zoneTearDown p s).freeCount = s.freeCount := by simp [zoneTearDown]

end Sys2Proof.Machine
end

