-- ==== Sys2Proof/Laws/Table.lean ====
section
/-!
SUPPORT. The laws of `Table`: what is read after an entry is written, and equality entry by entry.
-/

namespace Sys2Proof.Table

variable {n : Nat} {α β : Type}

@[simp] theorem get_tab (f : Fin n → α) (i : Fin n) : (tab f).get i = f i := by
  simp [tab, get]

@[simp] theorem get_all (x : α) (i : Fin n) : (all n x).get i = x := by simp [all]

@[simp] theorem get_mapIdx (f : Fin n → α → β) (t : Table n α) (i : Fin n) : (t.mapIdx f).get i = f i (t.get i) := by
  simp [mapIdx]

theorem get_put (t : Table n α) (i j : Fin n) (x : α) : (t.put i x).get j = if i = j then x else t.get j := by
  simp only [put, get, Vector.getElem_set, Fin.ext_iff]

@[simp] theorem get_put_self (t : Table n α) (i : Fin n) (x : α) : (t.put i x).get i = x := by simp [get_put]

theorem get_put_other (t : Table n α) {i j : Fin n} (h : i ≠ j) (x : α) : (t.put i x).get j = t.get j := by
  simp [get_put, h]

/-- Two tables that read alike are equal. -/
theorem ext_get {t u : Table n α} (h : ∀ i, t.get i = u.get i) : t = u := by
  cases t with | mk a =>
  cases u with | mk b =>
  congr 1
  exact Vector.ext fun i hi => h ⟨i, hi⟩

@[simp] theorem put_put (t : Table n α) (i : Fin n) (x y : α) : (t.put i x).put i y = t.put i y := by
  apply ext_get; intro j; simp only [get_put]; split <;> rfl

@[simp] theorem put_get (t : Table n α) (i : Fin n) : t.put i (t.get i) = t := by
  apply ext_get; intro j; simp only [get_put]; split
  · next h => rw [h]
  · rfl

theorem put_comm (t : Table n α) {i j : Fin n} (h : i ≠ j) (x y : α) : (t.put i x).put j y = (t.put j y).put i x := by
  apply ext_get; intro k; simp only [get_put]
  by_cases h1 : i = k <;> by_cases h2 : j = k <;> simp_all

@[simp] theorem mapIdx_mapIdx {γ : Type} (f : Fin n → α → β) (g : Fin n → β → γ) (t : Table n α) :
    (t.mapIdx f).mapIdx g = t.mapIdx fun i x => g i (f i x) := by
  apply ext_get; intro i; simp

@[simp] theorem mapIdx_same (t : Table n α) : (t.mapIdx fun _ x => x) = t := by apply ext_get; intro i; simp

theorem mapIdx_congr {f g : Fin n → α → β} {t : Table n α} (h : ∀ i, f i (t.get i) = g i (t.get i)) :
    t.mapIdx f = t.mapIdx g := by
  apply ext_get; intro i; simp [h i]

@[simp] theorem mem_having (p : α → Bool) (t : Table n α) (i : Fin n) : i ∈ t.having p ↔ p (t.get i) = true := by
  simp [having]

/-- The indexes that pass a test, each once. -/
theorem having_nodup (p : α → Bool) (t : Table n α) : (t.having p).Nodup := (List.nodup_finRange n).filter _

end Sys2Proof.Table
end

