-- ==== Sys2Proof/Laws/Ops.lean ====
section
/-!
SUPPORT. What each shared operation can do, said once: handing events over, picking the first entry of a kind, an owner
taking a request (`claim`), an answer coming back, handing values to the drivers.
-/

namespace Sys2Proof.Machine

/-! ### Handing events over -/

@[simp] theorem eventsFor_nil (p : Port) : eventsFor p [] = [] := rfl

@[simp] theorem eventsFor_cons (p q : Port) (e : Event) (es : List (Port × Event)) :
    eventsFor p ((q, e) :: es) = (if q = p then [e] else []) ++ eventsFor p es := by
  by_cases h : q = p <;> simp [eventsFor, h]

@[simp] theorem eventsFor_append (p : Port) (es fs : List (Port × Event)) :
    eventsFor p (es ++ fs) = eventsFor p es ++ eventsFor p fs := by
  simp [eventsFor]

@[simp] theorem eventsFor_flatMap {α : Type} (p : Port) (l : List α) (f : α → List (Port × Event)) :
    eventsFor p (l.flatMap f) = l.flatMap fun x => eventsFor p (f x) := by
  induction l with
  | nil => rfl
  | cons x xs ih => simp [ih]

/-- One event to each port of a list without repetitions. -/
theorem eventsFor_each (p : Port) (l : List Port) (hl : l.Nodup) (e : Port → Event) :
    eventsFor p (l.map fun q => (q, e q)) = if p ∈ l then [e p] else [] := by
  induction l with
  | nil => rfl
  | cons x xs ih =>
    simp only [List.nodup_cons] at hl
    simp only [List.map_cons, eventsFor_cons, ih hl.2, List.mem_cons]
    by_cases h : x = p
    · subst h; simp [hl.1]
    · simp [h, Ne.symm h]

/-- One event to every port whose entry passes a test. -/
@[simp] theorem eventsFor_having {α : Type} (p : Port) (f : α → Bool) (t : Table 4 α) (e : Event) :
    eventsFor p ((t.having f).map fun q => (q, e)) = if f (t.get p) then [e] else [] := by
  rw [eventsFor_each p _ (Table.having_nodup f t) fun _ => e]; simp

theorem eventsFor_filter (p : Port) (f : Port → Bool) (es : List (Port × Event)) :
    eventsFor p (es.filter fun e => f e.1) = if f p then eventsFor p es else [] := by
  induction es with
  | nil => simp
  | cons x xs ih =>
    obtain ⟨q, e⟩ := x
    by_cases hq : q = p
    · subst hq; by_cases hf : f q <;> simp [hf, ih]
    · by_cases hf : f q <;> simp [hf, ih, hq]

theorem eventsFor_ite (p : Port) (c : Prop) [Decidable c] (es fs : List (Port × Event)) :
    eventsFor p (if c then es else fs) = if c then eventsFor p es else eventsFor p fs := by split <;> rfl

/-- Handing over changes the queues, each by what is meant for its port, at the end of what had reached it. -/
theorem State.hand_eq_told (src : Producer) (es : List (Port × Event)) (s : State) :
    s.hand src es = { s with queues := s.told src fun p => eventsFor p es } := rfl

theorem State.axisStep_eq (ax : Axis) (w : AxisUnit × List (Port × Event)) (s : State) :
    s.axisStep ax w = { s with axes := s.axes.put ax w.1, queues := s.told (.axisUnit ax) fun p => eventsFor p w.2 } :=
  rfl

/-! ### Picking -/

/-- What is picked is an entry that passes, and every entry is picked or stays. -/
theorem mem_of_pick {α : Type} {f : α → Bool} {l : List α} {x : α} {rest : List α} (h : pick f l = some (x, rest)) :
    f x = true ∧ ∀ y, y ∈ l ↔ y = x ∨ y ∈ rest := by
  induction l generalizing rest with
  | nil => simp [pick] at h
  | cons a as ih =>
    simp only [pick] at h
    split at h
    · next hf => simp only [Option.some.injEq, Prod.mk.injEq] at h; obtain ⟨rfl, rfl⟩ := h; simp [hf]
    · split at h
      · next y r hp =>
        simp only [Option.some.injEq, Prod.mk.injEq] at h; obtain ⟨rfl, rfl⟩ := h
        obtain ⟨h1, h2⟩ := ih hp
        refine ⟨h1, fun z => ?_⟩
        simp only [List.mem_cons, h2 z]; tauto
      · simp at h

theorem pick_none {α : Type} {f : α → Bool} {l : List α} (h : pick f l = none) : ∀ x ∈ l, f x = false := by
  induction l with
  | nil => simp
  | cons a as ih =>
    simp only [pick] at h
    split at h
    · simp at h
    · next hf =>
      split at h
      · simp at h
      · next hp => intro x hx; rcases List.mem_cons.mp hx with rfl | hx <;> simp_all

/-- What stays, in order: the list with one entry removed. -/
theorem pick_perm {α : Type} {f : α → Bool} {l : List α} {x : α} {rest : List α} (h : pick f l = some (x, rest)) :
    l.Perm (x :: rest) := by
  induction l generalizing rest with
  | nil => simp [pick] at h
  | cons a as ih =>
    simp only [pick] at h
    split at h
    · simp only [Option.some.injEq, Prod.mk.injEq] at h; obtain ⟨rfl, rfl⟩ := h; exact .refl _
    · split at h
      · next y r hp =>
        simp only [Option.some.injEq, Prod.mk.injEq] at h; obtain ⟨rfl, rfl⟩ := h
        exact ((ih hp).cons a).trans (.swap _ _ _)
      · simp at h

theorem pick_sublist {α : Type} {f : α → Bool} {l : List α} {x : α} {rest : List α} (h : pick f l = some (x, rest)) :
    rest.Sublist l := by
  induction l generalizing rest with
  | nil => simp [pick] at h
  | cons a as ih =>
    simp only [pick] at h
    split at h
    · simp only [Option.some.injEq, Prod.mk.injEq] at h; obtain ⟨rfl, rfl⟩ := h; exact List.sublist_cons_self _ _
    · split at h
      · next y r hp =>
        simp only [Option.some.injEq, Prod.mk.injEq] at h; obtain ⟨rfl, rfl⟩ := h
        exact (ih hp).cons_cons a
      · simp at h

/-! ### Requests -/

@[simp] theorem PortUnit.receive_inFlight (b : Bool) (a : Answer) (u : PortUnit) :
    (u.receive b a).inFlight = u.inFlight := by unfold PortUnit.receive; split <;> rfl
@[simp] theorem PortUnit.receive_session (b : Bool) (a : Answer) (u : PortUnit) :
    (u.receive b a).session = u.session := by unfold PortUnit.receive; split <;> rfl
@[simp] theorem PortUnit.receive_number (b : Bool) (a : Answer) (u : PortUnit) :
    (u.receive b a).number = u.number := by unfold PortUnit.receive; split <;> rfl
@[simp] theorem PortUnit.receive_closePending (b : Bool) (a : Answer) (u : PortUnit) :
    (u.receive b a).closePending = u.closePending := by unfold PortUnit.receive; split <;> rfl
@[simp] theorem PortUnit.receive_prstn (b : Bool) (a : Answer) (u : PortUnit) :
    (u.receive b a).prstn = u.prstn := by unfold PortUnit.receive; split <;> rfl

/-- Taking a request is either nothing, or the owner's work on the state without the request in flight, followed by the
answer's return. -/
theorem claim_cases (p : Port) (r : Request) (work : State → State × Answer) (s : State) :
    claim p r work s = .next s ∨
      ∃ aw rest, s.Flying p r aw rest ∧
        claim p r work s = .next ((work (s.withInFlight p rest)).1.answer p aw (work (s.withInFlight p rest)).2) := by
  unfold claim State.Flying
  cases h : takeFirst r.owner (s.ports.get p).inFlight with
  | none => exact .inl rfl
  | some x =>
    obtain ⟨⟨r', aw⟩, rest⟩ := x
    by_cases hr : r' = r
    · subst hr; exact .inr ⟨aw, rest, rfl, by simp⟩
    · simp [hr]

/-- A request that is to be taken next is taken. -/
theorem claim_flying {p : Port} {r : Request} {aw : Bool} {rest : List Dispatch} {s : State} (h : s.Flying p r aw rest)
    (work : State → State × Answer) :
    claim p r work s =
      .next ((work (s.withInFlight p rest)).1.answer p aw (work (s.withInFlight p rest)).2) := by
  unfold claim; rw [show takeFirst r.owner (s.ports.get p).inFlight = _ from h]; simp

/-- An answer to work that touched no port unit. -/
theorem answer_ports {s t : State} {p : Port} {aw : Bool} {rest : List Dispatch} {a : Answer}
    (h : t.ports = (s.withInFlight p rest).ports) :
    t.answer p aw a = { t with ports := s.answeredPorts p aw rest a } := by
  simp [State.answer, State.setPort, State.answeredPorts, h]

/-- Work that leaves the ports as they are, followed by the answer. -/
theorem claim_next {p : Port} {r : Request} {aw : Bool} {rest : List Dispatch} {s : State} (h : s.Flying p r aw rest)
    (work : State → State × Answer)
    (hp : (work (s.withInFlight p rest)).1.ports = (s.withInFlight p rest).ports) :
    claim p r work s =
      .next { (work (s.withInFlight p rest)).1 with
                ports := s.answeredPorts p aw rest (work (s.withInFlight p rest)).2 } := by
  rw [claim_flying h, answer_ports hp]

/-! ### Drivers -/

theorem State.commitOutputs_eq (outs : Table 8 Output) (s : State) :
    s.commitOutputs outs = { s with outputs := outs, drivers := s.driven outs } := rfl

end Sys2Proof.Machine
end

