-- ==== Sys2Proof/Laws/Frames.lean ====
section
/-!
SUPPORT. Frames and fields read back as they were written: a request frame passes its tests and yields its parts, every
field decodes to what was encoded, and every request's payload parses to that request.
-/

namespace Sys2Proof.Machine

/-! ### Frames -/

theorem length_requestFrame (code session tag : Byte) (payload : List Byte) :
    (requestFrame code session tag payload).length = payload.length + 5 := by simp [requestFrame]

theorem requestFrame_eq (code session tag : Byte) (payload : List Byte) :
    requestFrame code session tag payload =
      ([byteOf (payload.length + 5), code, session, tag] ++ payload) ++
        [crc8 ([byteOf (payload.length + 5), code, session, tag] ++ payload)] := rfl

/-- R147: a frame written as R162 says passes the frame tests. -/
theorem frameVerdict_requestFrame (code session tag : Byte) (payload : List Byte) (h : payload.length ≤ 59) :
    frameVerdict (requestFrame code session tag payload) = none := by
  have hb : (byteOf (payload.length + 5)).toNat = payload.length + 5 := by simp [byteOf]; omega
  have h0 : byteAt (requestFrame code session tag payload) 0 = byteOf (payload.length + 5) := rfl
  have hlen := length_requestFrame code session tag payload
  have hl : byteAt (requestFrame code session tag payload) (payload.length + 5 - 1) =
      crc8 (requestFrame code session tag payload).dropLast := by
    rw [requestFrame_eq, List.dropLast_concat]
    simp [byteAt, List.getD_eq_getElem?_getD]
  unfold frameVerdict
  rw [h0, hb, hlen, hl]
  rw [if_neg (by omega), if_neg (by simp)]

@[simp] theorem requestFrame_code (code session tag : Byte) (payload : List Byte) :
    byteAt (requestFrame code session tag payload) 1 = code := rfl
@[simp] theorem requestFrame_session (code session tag : Byte) (payload : List Byte) :
    byteAt (requestFrame code session tag payload) 2 = session := rfl
@[simp] theorem requestFrame_tag (code session tag : Byte) (payload : List Byte) :
    byteAt (requestFrame code session tag payload) 3 = tag := rfl
@[simp] theorem requestFrame_payload (code session tag : Byte) (payload : List Byte) :
    ((requestFrame code session tag payload).drop 4).dropLast = payload := by
  rw [requestFrame_eq]; simp

/-! ### Numbers -/

theorem bytes16 (w : BitVec 16) : (w.extractLsb' 8 8 ++ w.extractLsb' 0 8 : BitVec 16) = w := by
  apply BitVec.eq_of_getLsbD_eq; intro i hi
  rw [BitVec.getLsbD_append]
  simp only [BitVec.getLsbD_extractLsb']
  by_cases h : i < 8
  · simp [h]
  · simp [h, show 8 + (i - 8) = i by omega, show i - 8 < 8 by omega]

theorem bytes24 (w : BitVec 24) :
    (w.extractLsb' 16 8 ++ (w.extractLsb' 8 8 ++ w.extractLsb' 0 8 : BitVec 16) : BitVec 24) = w := by
  apply BitVec.eq_of_getLsbD_eq; intro i hi
  rw [BitVec.getLsbD_append, BitVec.getLsbD_append]
  simp only [BitVec.getLsbD_extractLsb']
  by_cases h : i < 8
  · simp [h, show i < 16 by omega]
  · by_cases h' : i < 16
    · simp [h, h', show 8 + (i - 8) = i by omega, show i - 8 < 8 by omega]
    · simp [h', show 16 + (i - 16) = i by omega, show i - 16 < 8 by omega]

theorem bytes32 (w : Word) :
    ((w.extractLsb' 24 8 ++ w.extractLsb' 16 8 : BitVec 16) ++ (w.extractLsb' 8 8 ++ w.extractLsb' 0 8 : BitVec 16) :
      Word) = w := by
  apply BitVec.eq_of_getLsbD_eq; intro i hi
  rw [BitVec.getLsbD_append, BitVec.getLsbD_append, BitVec.getLsbD_append]
  simp only [BitVec.getLsbD_extractLsb']
  by_cases h : i < 8
  · simp [h, show i < 16 by omega]
  · by_cases h' : i < 16
    · simp [h, h', show 8 + (i - 8) = i by omega, show i - 8 < 8 by omega]
    · by_cases h2 : i < 24
      · simp [h', show i - 16 < 8 by omega, show 16 + (i - 16) = i by omega]
      · simp [h', show ¬ i - 16 < 8 by omega, show 24 + (i - 16 - 8) = i by omega, show i - 16 - 8 < 8 by omega]

/-- A number of two, three or four bytes reads back from where it was written. -/
theorem read16_mk (l : List Byte) (i : Nat) (w : BitVec 16) (h0 : byteAt l i = w.extractLsb' 0 8)
    (h1 : byteAt l (i + 1) = w.extractLsb' 8 8) : read16 l i = w := by
  rw [read16, h0, h1]; exact bytes16 w

theorem read24_mk (l : List Byte) (i : Nat) (w : BitVec 24) (h0 : byteAt l i = w.extractLsb' 0 8)
    (h1 : byteAt l (i + 1) = w.extractLsb' 8 8) (h2 : byteAt l (i + 2) = w.extractLsb' 16 8) : read24 l i = w := by
  rw [read24, read16, h0, h1, h2]; exact bytes24 w

theorem read32_mk (l : List Byte) (i : Nat) (w : Word) (h0 : byteAt l i = w.extractLsb' 0 8)
    (h1 : byteAt l (i + 1) = w.extractLsb' 8 8) (h2 : byteAt l (i + 2) = w.extractLsb' 16 8)
    (h3 : byteAt l (i + 3) = w.extractLsb' 24 8) : read32 l i = w := by
  rw [read32, read16, read16, h0, h1, h2, h3]; exact bytes32 w

theorem toInt_ofInt32 {x : Int} (h : signed32 x = true) : (BitVec.ofInt 32 x).toInt = x := by
  simp only [signed32, Bool.and_eq_true, decide_eq_true_eq] at h
  simp only [BitVec.toInt_ofInt, Int.bmod]
  split <;> omega

theorem readSigned_mk (l : List Byte) (i : Nat) (x : Int) (hx : signed32 x = true)
    (h0 : byteAt l i = (BitVec.ofInt 32 x).extractLsb' 0 8) (h1 : byteAt l (i + 1) = (BitVec.ofInt 32 x).extractLsb' 8 8)
    (h2 : byteAt l (i + 2) = (BitVec.ofInt 32 x).extractLsb' 16 8)
    (h3 : byteAt l (i + 3) = (BitVec.ofInt 32 x).extractLsb' 24 8) : readSigned l i = x := by
  rw [readSigned, read32_mk l i _ h0 h1 h2 h3, toInt_ofInt32 hx]

/-! ### Fields -/

@[simp] theorem finOfCode_finCode {n : Nat} (hn : n ≤ 256) (i : Fin n) : finOfCode n (finCode i) = some i := by
  have := i.isLt
  simp [finOfCode, finCode, byteOf]
  constructor
  · apply Fin.ext; simp; omega
  · omega

@[simp] theorem direction_roundtrip (d : Direction) : Direction.ofCode d.code = some d := by cases d <;> rfl
@[simp] theorem dirReq_roundtrip (d : DirReq) : DirReq.ofCode d.code = some d := by cases d <;> rfl
@[simp] theorem captureFlags_roundtrip (c : CaptureFlags) : CaptureFlags.ofCode c.code = some c := by cases c <;> rfl
@[simp] theorem filter_roundtrip (f : Filter) : Filter.ofCode f.code = some f := by cases f <;> rfl
@[simp] theorem force_roundtrip (f : Force) : Force.ofCode f.code = some f := by cases f <;> rfl
@[simp] theorem policy_roundtrip (p : LossPolicy) : LossPolicy.ofCode p.code = some p := by cases p <;> rfl
@[simp] theorem mode_roundtrip (m : CursorMode) : CursorMode.ofCode m.code = some m := by cases m <;> rfl
@[simp] theorem bool_roundtrip (b : Bool) : boolOfCode (boolCode b) = some b := by cases b <;> rfl
@[simp] theorem edge_roundtrip (e : Option EdgeSel) : edgeOfCode (edgeCode e) = some e := by
  rcases e with _ | e
  · rfl
  · cases e <;> rfl
@[simp] theorem choice_roundtrip (c : Option Filter) : choiceOfCode (choiceCode c) = some c := by
  rcases c with _ | c
  · rfl
  · cases c <;> rfl
@[simp] theorem qualifier_roundtrip (q : Qualifier) : Qualifier.ofCode q.code = some q := by
  rcases q with _ | ⟨t, b⟩
  · rfl
  · fin_cases t <;> cases b <;> rfl
@[simp] theorem axisSet_roundtrip (s : BitVec 4) : axisSetOfCode (axisSetCode s) = some s := by
  have := s.isLt
  have h : (BitVec.setWidth 8 s).toNat < 16 := by simp; omega
  simp only [axisSetOfCode, axisSetCode, h, if_true, Option.some.injEq]
  apply BitVec.eq_of_toNat_eq; simp

/-! ### Fields read: the code of what a field decodes to is the field -/

theorem finOfCode_inv {n : Nat} {b : Byte} {i : Fin n} (h : finOfCode n b = some i) : finCode i = b := by
  unfold finOfCode at h; split at h
  · injection h with h; subst h; simp [finCode, byteOf]
  · cases h

theorem direction_inv {b : Byte} {d : Direction} (h : Direction.ofCode b = some d) : d.code = b := by
  unfold Direction.ofCode at h; (repeat' split at h) <;> cases h <;> (subst b; rfl)
theorem qualifier_inv {b : Byte} {q : Qualifier} (h : Qualifier.ofCode b = some q) : q.code = b := by
  unfold Qualifier.ofCode at h; (repeat' split at h) <;> cases h <;> (subst b; rfl)
theorem dirReq_inv {b : Byte} {d : DirReq} (h : DirReq.ofCode b = some d) : d.code = b := by
  unfold DirReq.ofCode at h; (repeat' split at h) <;> cases h <;> (subst b; rfl)
theorem captureFlags_inv {b : Byte} {c : CaptureFlags} (h : CaptureFlags.ofCode b = some c) : c.code = b := by
  unfold CaptureFlags.ofCode at h; (repeat' split at h) <;> cases h <;> (subst b; rfl)
theorem filter_inv {b : Byte} {f : Filter} (h : Filter.ofCode b = some f) : f.code = b := by
  unfold Filter.ofCode at h; (repeat' split at h) <;> cases h <;> (subst b; rfl)
theorem force_inv {b : Byte} {f : Force} (h : Force.ofCode b = some f) : f.code = b := by
  unfold Force.ofCode at h; (repeat' split at h) <;> cases h <;> (subst b; rfl)
theorem policy_inv {b : Byte} {p : LossPolicy} (h : LossPolicy.ofCode b = some p) : p.code = b := by
  unfold LossPolicy.ofCode at h; (repeat' split at h) <;> cases h <;> (subst b; rfl)
theorem mode_inv {b : Byte} {m : CursorMode} (h : CursorMode.ofCode b = some m) : m.code = b := by
  unfold CursorMode.ofCode at h; (repeat' split at h) <;> cases h <;> (subst b; rfl)
theorem bool_inv {b : Byte} {x : Bool} (h : boolOfCode b = some x) : boolCode x = b := by
  unfold boolOfCode at h; (repeat' split at h) <;> cases h <;> (subst b; rfl)
theorem edge_inv {b : Byte} {e : Option EdgeSel} (h : edgeOfCode b = some e) : edgeCode e = b := by
  unfold edgeOfCode at h; (repeat' split at h) <;> cases h <;> (subst b; rfl)
theorem choice_inv {b : Byte} {c : Option Filter} (h : choiceOfCode b = some c) : choiceCode c = b := by
  unfold choiceOfCode at h; split at h
  · cases h; subst b; rfl
  · obtain ⟨f, hf, rfl⟩ := Option.map_eq_some_iff.1 h; exact filter_inv hf
theorem axisSet_inv {b : Byte} {s : BitVec 4} (h : axisSetOfCode b = some s) : axisSetCode s = b := by
  unfold axisSetOfCode at h; split at h
  · injection h with h; subst h
    apply BitVec.eq_of_toNat_eq; simp [axisSetCode]; omega
  · cases h

theorem le16_read (a b : Byte) : le16 (b ++ a : BitVec 16) = [a, b] := by
  simp only [le16, List.cons.injEq, and_true]
  constructor <;>
    (apply BitVec.eq_of_getLsbD_eq; intro i hi; rw [BitVec.getLsbD_extractLsb', BitVec.getLsbD_append]; simp [hi])

theorem le24_read (a b c : Byte) : le24 (c ++ (b ++ a : BitVec 16) : BitVec 24) = [a, b, c] := by
  simp only [le24, List.cons.injEq, and_true]
  refine ⟨?_, ?_, ?_⟩ <;>
    (apply BitVec.eq_of_getLsbD_eq; intro i hi
     rw [BitVec.getLsbD_extractLsb', BitVec.getLsbD_append, BitVec.getLsbD_append]; simp [hi]; try omega)

theorem le32_read (a b c d : Byte) : le32 ((d ++ c : BitVec 16) ++ (b ++ a : BitVec 16) : Word) = [a, b, c, d] := by
  simp only [le32, List.cons.injEq, and_true]
  refine ⟨?_, ?_, ?_, ?_⟩ <;>
    (apply BitVec.eq_of_getLsbD_eq; intro i hi
     rw [BitVec.getLsbD_extractLsb', BitVec.getLsbD_append, BitVec.getLsbD_append, BitVec.getLsbD_append])
  · simp [hi]; omega
  · simp [hi, show 8 + i < 16 by omega]
  · simp [hi, show ¬ 16 + i < 16 by omega]
  · simp [hi, show ¬ 24 + i < 16 by omega, show ¬ 24 + i - 16 < 8 by omega, show 24 + i - 16 - 8 = i by omega]

/-- A signed field writes back to the four bytes it was read from, and its value is one such a field can carry. -/
theorem signedBytes_read (l : List Byte) (i : Nat) :
    signedBytes (readSigned l i) = [byteAt l i, byteAt l (i + 1), byteAt l (i + 2), byteAt l (i + 3)] := by
  unfold signedBytes readSigned; rw [BitVec.ofInt_toInt]; exact le32_read ..

theorem signed32_read (l : List Byte) (i : Nat) : signed32 (readSigned l i) = true := by
  have h1 := BitVec.le_toInt (read32 l i); have h2 := BitVec.toInt_lt (x := read32 l i)
  rw [signed32, readSigned, Bool.and_eq_true, decide_eq_true_eq, decide_eq_true_eq]
  exact ⟨by omega, by omega⟩

/-! ### Requests -/

theorem field_ok {α : Type} {decode : Byte → Option α} {l : List Byte} {i : Nat} {x : α}
    (h : decode (byteAt l i) = some x) : field decode l i = .ok x := by simp [field, h]

/-- A field that was read was decoded from the byte at its offset. -/
theorem field_inv {α : Type} {decode : Byte → Option α} {l : List Byte} {i : Nat} {x : α}
    (h : field decode l i = .ok x) : decode (byteAt l i) = some x := by
  unfold field at h; split at h
  · next hd => injection h with h; rw [hd, h]
  · cases h

/-- R162, R165: every request's payload fits a request frame. -/
theorem length_payload_le {r : Request} (h : r.wellFormed = true) : r.payload.length ≤ 59 := by
  cases r
  case postMessage p n pl =>
    have hl : pl.length ≤ 56 := of_decide_eq_true h
    simp [Request.payload]; omega
  all_goals simp [Request.payload, signedBytes, le16, le24, le32]

/-- R165, R167: the payload a master writes for a request parses, in the row of its code, to that request. -/
theorem parse_payload {r : Request} (h : r.wellFormed = true) :
    ∃ row, requestRow r.code = some row ∧ row.parse r.payload = .ok (.dispatched r) := by
  cases r
  case postMessage p n pl =>
    refine ⟨_, rfl, ?_⟩
    have hl : pl.length ≤ 56 := of_decide_eq_true h
    have hb : (byteOf pl.length).toNat = pl.length := by simp [byteOf]; omega
    have h1 : postLengthOk (Request.postMessage p n pl).payload = true := by
      simp [postLengthOk, Request.payload, byteAt, hb]; omega
    have h2 : field (finOfCode 4) (Request.postMessage p n pl).payload 0 = .ok p :=
      field_ok (finOfCode_finCode (by omega) p)
    have h3 : field boolOfCode (Request.postMessage p n pl).payload 1 = .ok n := field_ok (bool_roundtrip n)
    simp only [RequestRow.parse, h1, if_true, h2, h3]
    rfl
  case configureAxis ax m d lo hi pi tol =>
    refine ⟨_, rfl, ?_⟩
    rw [Request.wellFormed, Bool.and_eq_true] at h
    have h1 := field_ok (l := (Request.configureAxis ax m d lo hi pi tol).payload) (i := 0)
      (finOfCode_finCode (by omega) ax)
    have h2 := field_ok (l := (Request.configureAxis ax m d lo hi pi tol).payload) (i := 2) (direction_roundtrip d)
    have h3 := field_ok (l := (Request.configureAxis ax m d lo hi pi tol).payload) (i := 14)
      (finOfCode_finCode (by omega) tol)
    have h4 := readSigned_mk (Request.configureAxis ax m d lo hi pi tol).payload 3 lo h.1 rfl rfl rfl rfl
    have h5 := readSigned_mk (Request.configureAxis ax m d lo hi pi tol).payload 7 hi h.2 rfl rfl rfl rfl
    have h6 := read24_mk (Request.configureAxis ax m d lo hi pi tol).payload 11 pi rfl rfl rfl
    rw [RequestRow.parse, if_pos (by rfl)]
    simp only [h1, h2, h3, h4, h5, h6]
    rfl
  case setOffset ax off =>
    refine ⟨_, rfl, ?_⟩
    have h1 := field_ok (l := (Request.setOffset ax off).payload) (i := 0) (finOfCode_finCode (by omega) ax)
    have h2 := readSigned_mk (Request.setOffset ax off).payload 1 off h rfl rfl rfl rfl
    rw [RequestRow.parse, if_pos (by rfl)]; simp only [h1, h2]; rfl
  case align ax preset q d =>
    refine ⟨_, rfl, ?_⟩
    have h1 := field_ok (l := (Request.align ax preset q d).payload) (i := 0) (finOfCode_finCode (by omega) ax)
    have h2 := readSigned_mk (Request.align ax preset q d).payload 1 preset h rfl rfl rfl rfl
    have h3 := field_ok (l := (Request.align ax preset q d).payload) (i := 5) (qualifier_roundtrip q)
    have h4 := field_ok (l := (Request.align ax preset q d).payload) (i := 6) (dirReq_roundtrip d)
    rw [RequestRow.parse, if_pos (by rfl)]; simp only [h1, h2, h3, h4]; rfl
  case defineZone ax lo up g c f =>
    refine ⟨_, rfl, ?_⟩
    rw [Request.wellFormed, Bool.and_eq_true] at h
    have h1 := field_ok (l := (Request.defineZone ax lo up g c f).payload) (i := 0) (finOfCode_finCode (by omega) ax)
    have h2 := readSigned_mk (Request.defineZone ax lo up g c f).payload 1 lo h.1 rfl rfl rfl rfl
    have h3 := readSigned_mk (Request.defineZone ax lo up g c f).payload 5 up h.2 rfl rfl rfl rfl
    have h4 := read16_mk (Request.defineZone ax lo up g c f).payload 9 g rfl rfl
    have h5 := field_ok (l := (Request.defineZone ax lo up g c f).payload) (i := 11) (captureFlags_roundtrip c)
    have h6 := field_ok (l := (Request.defineZone ax lo up g c f).payload) (i := 12) (choice_roundtrip f)
    rw [RequestRow.parse, if_pos (by rfl)]; simp only [h1, h2, h3, h4, h5, h6]; rfl
  case modifyZone z n lo up g c =>
    refine ⟨_, rfl, ?_⟩
    rw [Request.wellFormed, Bool.and_eq_true] at h
    have h1 := field_ok (l := (Request.modifyZone z n lo up g c).payload) (i := 0) (finOfCode_finCode (by omega) z)
    have h2 := read16_mk (Request.modifyZone z n lo up g c).payload 1 n rfl rfl
    have h3 := readSigned_mk (Request.modifyZone z n lo up g c).payload 3 lo h.1 rfl rfl rfl rfl
    have h4 := readSigned_mk (Request.modifyZone z n lo up g c).payload 7 up h.2 rfl rfl rfl rfl
    have h5 := read16_mk (Request.modifyZone z n lo up g c).payload 11 g rfl rfl
    have h6 := field_ok (l := (Request.modifyZone z n lo up g c).payload) (i := 13) (captureFlags_roundtrip c)
    rw [RequestRow.parse, if_pos (by rfl)]; simp only [h1, h2, h3, h4, h5, h6]; rfl
  case deleteZone z n =>
    refine ⟨_, rfl, ?_⟩
    have h1 := field_ok (l := (Request.deleteZone z n).payload) (i := 0) (finOfCode_finCode (by omega) z)
    have h2 := read16_mk (Request.deleteZone z n).payload 1 n rfl rfl
    rw [RequestRow.parse, if_pos (by rfl)]; simp only [h1, h2]; rfl
  case subscribeZone z n f =>
    refine ⟨_, rfl, ?_⟩
    have h1 := field_ok (l := (Request.subscribeZone z n f).payload) (i := 0) (finOfCode_finCode (by omega) z)
    have h2 := read16_mk (Request.subscribeZone z n f).payload 1 n rfl rfl
    have h3 := field_ok (l := (Request.subscribeZone z n f).payload) (i := 3) (filter_roundtrip f)
    rw [RequestRow.parse, if_pos (by rfl)]; simp only [h1, h2, h3]; rfl
  case claimOutput o d w =>
    refine ⟨_, rfl, ?_⟩
    have h1 := field_ok (l := (Request.claimOutput o d w).payload) (i := 0) (finOfCode_finCode (by omega) o)
    have h2 := read16_mk (Request.claimOutput o d w).payload 1 d rfl rfl
    have h3 := field_ok (l := (Request.claimOutput o d w).payload) (i := 3) (bool_roundtrip w)
    rw [RequestRow.parse, if_pos (by rfl)]; simp only [h1, h2, h3]; rfl
  case renewLease o d =>
    refine ⟨_, rfl, ?_⟩
    have h1 := field_ok (l := (Request.renewLease o d).payload) (i := 0) (finOfCode_finCode (by omega) o)
    have h2 := read16_mk (Request.renewLease o d).payload 1 d rfl rfl
    rw [RequestRow.parse, if_pos (by rfl)]; simp only [h1, h2]; rfl
  case mapOutput o zs =>
    refine ⟨_, rfl, ?_⟩
    have h1 := field_ok (l := (Request.mapOutput o zs).payload) (i := 0) (finOfCode_finCode (by omega) o)
    have h2 := read32_mk (Request.mapOutput o zs).payload 1 zs rfl rfl rfl rfl
    rw [RequestRow.parse, if_pos (by rfl)]; simp only [h1, h2]; rfl
  case ackEvents q =>
    refine ⟨_, rfl, ?_⟩
    have h2 := read16_mk (Request.ackEvents q).payload 0 q rfl rfl
    rw [RequestRow.parse, if_pos (by rfl)]; simp only [h2]
  all_goals
    refine ⟨_, rfl, ?_⟩
    simp [RequestRow.parse, Request.payload, exactly, field, byteAt]
  all_goals rfl

end Sys2Proof.Machine
end

