-- ==== Sys2Proof/Laws/Ports.lean ====
section
/-!
SUPPORT. What a port unit does with a frame: when it takes one, what it takes in it, and each way of answering it.
-/

namespace Sys2Proof.Machine

/-! ### The transaction the first byte selects (R143, R160) -/

theorem linkCommand_nil (p : Port) : linkCommand p [] = .voidTransaction p [] := rfl
theorem linkCommand_put (p : Port) (f : List Byte) : linkCommand p (0xA5 :: f) = .put p f := rfl
theorem linkCommand_get (p : Port) (l : List Byte) : linkCommand p (0x5A :: l) = .get p l.length := rfl
theorem linkCommand_peek (p : Port) (l : List Byte) : linkCommand p (0x3C :: l) = .peek p l.length := rfl

theorem isTypeCode_iff {b : Byte} : isTypeCode b = true ↔ b = 0xA5 ∨ b = 0x5A ∨ b = 0x3C := by
  simp [isTypeCode, putType, getType, peekType, or_assoc]

theorem isTypeCode_false {b : Byte} : isTypeCode b = false ↔ b ≠ 0xA5 ∧ b ≠ 0x5A ∧ b ≠ 0x3C := by
  rw [← Bool.not_eq_true, isTypeCode_iff]; simp

theorem linkCommand_void {b : Byte} (h : isTypeCode b = false) (p : Port) (l : List Byte) :
    linkCommand p (b :: l) = .voidTransaction p (b :: l) := by
  obtain ⟨h1, h2, h3⟩ := isTypeCode_false.1 h
  unfold linkCommand; dsimp only
  rw [if_neg (show b ≠ putType from h1), if_neg (show b ≠ getType from h2), if_neg (show b ≠ peekType from h3)]

/-- What the bytes of one chip-select period can be: nothing, a PUT, a GET, a PEEK or a void transaction. -/
theorem linkCommand_cases (p : Port) (b : Byte) (l : List Byte) :
    linkCommand p (b :: l) = .put p l ∨ linkCommand p (b :: l) = .get p l.length ∨
      linkCommand p (b :: l) = .peek p l.length ∨
      (isTypeCode b = false ∧ linkCommand p (b :: l) = .voidTransaction p (b :: l)) := by
  cases h : isTypeCode b with
  | false => exact .inr (.inr (.inr ⟨rfl, linkCommand_void h p l⟩))
  | true =>
    rcases isTypeCode_iff.1 h with rfl | rfl | rfl
    · exact .inl rfl
    · exact .inr (.inl rfl)
    · exact .inr (.inr (.inl rfl))

/-! ### Frames -/

/-- R146: a frame that is taken is carried out on the state whose port has clocked out its zeros. -/
theorem putTransaction_takes {s : State} {p : Port} {note : Bool} (h : s.Takes p note) (n : Nat)
    (f : Bool → State → State) : putTransaction p n f s = f note (s.clockOut p (zeros (n + 1))) := by
  rcases h.slot with ⟨hn, hs⟩ | ⟨hn, r, hs⟩ <;> simp [putTransaction, h.alive, h.started, hn, hs]

/-- A transaction's zeros are all it leaves when the link is ignored. -/
theorem putTransaction_ignored {s : State} {p : Port} (h : s.linkIgnored p = true) (n : Nat)
    (f : Bool → State → State) : putTransaction p n f s = s.clockOut p (zeros (n + 1)) := by
  simp [putTransaction, h]

/-- What a frame can do: nothing but zeros, the flag, or what taking it does. -/
theorem putTransaction_cases (p : Port) (n : Nat) (f : Bool → State → State) (s : State) :
    putTransaction p n f s = s.clockOut p (zeros (n + 1)) ∨
    putTransaction p n f s = (s.clockOut p (zeros (n + 1))).flagDiscard p ∨
    ∃ note, s.Takes p note ∧ putTransaction p n f s = f note (s.clockOut p (zeros (n + 1))) := by
  by_cases hl : s.linkIgnored p = true
  · exact .inl (putTransaction_ignored hl n f)
  · simp only [Bool.not_eq_true] at hl
    by_cases hs : s.starting = true
    · exact .inr (.inl (by simp [putTransaction, hl, hs]))
    · simp only [Bool.not_eq_true] at hs
      cases h : (s.ports.get p).slot with
      | working => exact .inr (.inl (by simp [putTransaction, hl, hs, h]))
      | ready =>
        have ht : s.Takes p false := ⟨hl, hs, .inl ⟨rfl, h⟩⟩
        exact .inr (.inr ⟨false, ht, putTransaction_takes ht n f⟩)
      | answerReady r =>
        have ht : s.Takes p true := ⟨hl, hs, .inr ⟨rfl, r, h⟩⟩
        exact .inr (.inr ⟨true, ht, putTransaction_takes ht n f⟩)

theorem judge_unknown {code : Byte} (h : requestRow code = none) (p : Port) (number tag : Byte) (payload : List Byte)
    (note : Bool) (s : State) :
    judgeFrame p code number tag payload note s = s.respond p code tag note (.refuse .unknownRequest) := by
  unfold judgeFrame; rw [h]

theorem judge_session {code number : Byte} {row : RequestRow} {r : ResultCode} {p : Port} {s : State}
    (h : requestRow code = some row) (hs : sessionVerdict (s.ports.get p) code number = some r) (tag : Byte)
    (payload : List Byte) (note : Bool) :
    judgeFrame p code number tag payload note s = s.respond p code tag note (.refuse r) := by
  unfold judgeFrame; rw [h]; simp only [hs]

theorem judge_payload {code number off : Byte} {row : RequestRow} {p : Port} {s : State} {payload : List Byte}
    (h : requestRow code = some row) (hs : sessionVerdict (s.ports.get p) code number = none)
    (hp : row.parse payload = .error off) (tag : Byte) (note : Bool) :
    judgeFrame p code number tag payload note s = s.respond p code tag note ⟨.badPayload, [off]⟩ := by
  unfold judgeFrame; rw [h]; simp only [hs, hp]

theorem judge_ok {code number : Byte} {row : RequestRow} {asked : Asked} {p : Port} {s : State} {payload : List Byte}
    (h : requestRow code = some row) (hs : sessionVerdict (s.ports.get p) code number = none)
    (hp : row.parse payload = .ok asked) (tag : Byte) (note : Bool) :
    judgeFrame p code number tag payload note s = s.carryOut p code tag note asked := by
  unfold judgeFrame; rw [h]; simp only [hs, hp]

/-- What a judged frame can do: a response, or what its request is carried out as; and if it is carried out, the session
admitted it. -/
theorem judge_cases (p : Port) (code number tag : Byte) (payload : List Byte) (note : Bool) (s : State) :
    (∃ a, judgeFrame p code number tag payload note s = s.respond p code tag note a) ∨
    ∃ row asked, requestRow code = some row ∧ sessionVerdict (s.ports.get p) code number = none ∧
      row.parse payload = .ok asked ∧
      judgeFrame p code number tag payload note s = s.carryOut p code tag note asked := by
  cases h : requestRow code with
  | none => exact .inl ⟨_, judge_unknown h p number tag payload note s⟩
  | some row =>
    cases hs : sessionVerdict (s.ports.get p) code number with
    | some r => exact .inl ⟨_, judge_session h hs tag payload note⟩
    | none =>
      cases hp : row.parse payload with
      | error off => exact .inl ⟨_, judge_payload h hs hp tag note⟩
      | ok asked => exact .inr ⟨row, asked, rfl, rfl, hp, judge_ok h hs hp tag note⟩

/-- What a judged frame does leaves the bytes clocked out as they are. -/
theorem judge_miso (p : Port) (code number tag : Byte) (payload : List Byte) (note : Bool) (s : State) :
    ((judgeFrame p code number tag payload note s).ports.get p).miso = (s.ports.get p).miso := by
  rcases judge_cases p code number tag payload note s with ⟨a, h⟩ | ⟨row, asked, _, _, _, h⟩
  · simp [h, State.respond, State.setPort]
  · rw [h]
    cases asked <;> simp [State.carryOut, State.respond, State.openedSession, State.dispatch, State.closeAccepted,
      startTeardown, State.setPort, State.setQueue]

theorem take_miso (p : Port) (f : List Byte) (note : Bool) (s : State) :
    ((takeFrame p f note s).ports.get p).miso = (s.ports.get p).miso := by
  unfold takeFrame; split
  · simp [State.respond, State.setPort]
  · exact judge_miso ..

/-- R160: a PUT clocks out 0x00 for every byte, its type byte among them, whatever becomes of its frame. -/
theorem put_miso (p : Port) (n : Nat) (f : Bool → State → State) (s : State)
    (hf : ∀ b t, ((f b t).ports.get p).miso = (t.ports.get p).miso) :
    ((putTransaction p n f s).ports.get p).miso = zeros (n + 1) := by
  rcases putTransaction_cases p n f s with h | h | ⟨_, _, h⟩ <;>
    simp [h, hf, State.clockOut, State.flagDiscard, State.setPort]

/-- R165: the rows of the three requests a port unit executes itself. -/
theorem row_identify : requestRow 0x01 = some ⟨0x01, exactly 0, fun _ => .ok .identify⟩ := rfl
theorem row_open : requestRow 0x02 = some ⟨0x02, exactly 0, fun _ => .ok .openSession⟩ := rfl
theorem row_close : requestRow 0x03 = some ⟨0x03, exactly 0, fun _ => .ok .closeSession⟩ := rfl

/-- R154: every other request is refused unless the session is OPEN with the frame's number. -/
theorem sessionVerdict_other {u : PortUnit} {code number : Byte} (h1 : code ≠ 0x01) (h2 : code ≠ 0x02) :
    sessionVerdict u code number = none ↔ u.session = .opened ∧ number = u.number := by
  unfold sessionVerdict; rw [if_neg h1, if_neg h2]
  cases u.session <;> simp

theorem Request.code_other (r : Request) : r.code ≠ 0x01 ∧ r.code ≠ 0x02 ∧ r.code ≠ 0x03 := by
  cases r <;> simp [Request.code]

/-- R144, R161: the status byte bit by bit. -/
theorem statusByte_eq (s : State) (p : Port) :
    statusByte s.starting (s.ports.get p) (s.queues.get p) = s.statusBits p := by
  simp only [statusByte, State.statusBits]
  generalize s.starting = a, (s.queues.get p).records.isEmpty = b, (s.ports.get p).frameDiscarded = c,
    (s.ports.get p).session = d, (s.ports.get p).slot = e
  cases d <;> cases e <;> simp only [Session.code, ReqSlot.code] <;> cases a <;> cases b <;> cases c <;> rfl

end Sys2Proof.Machine
end

