-- ==== Sys2Proof/Laws/Untouched.lean ====
section
/-!
SUPPORT. What a command leaves as it is: for each group of fields of the state the commands that can change it, and that
every other command keeps it.
-/

namespace Sys2Proof.Machine

variable {α : Type}

/-- A part of the state that no change of a port unit or an event queue reaches. -/
structure Apart (K : State → α) : Prop where
  port : ∀ p u s, K (State.setPort p u s) = K s
  queue : ∀ p q s, K (State.setQueue p q s) = K s

theorem claim_keeps {K : State → α} (hK : Apart K) {p : Port} {r : Request} {work : State → State × Answer} {s : State}
    (hw : ∀ t, K (work t).1 = K t) : ∃ t, claim p r work s = .next t ∧ K t = K s := by
  rcases claim_cases p r work s with h | ⟨aw, rest, _, h⟩
  · exact ⟨_, h, rfl⟩
  · exact ⟨_, h, by rw [State.answer, hK.port, hw, State.withInFlight, hK.port]⟩

theorem startTeardown_keeps {K : State → α} (hK : Apart K) (p : Port) (s : State) : K (startTeardown p s) = K s := by
  unfold startTeardown; simp only [hK.port, hK.queue]

theorem judge_keeps {K : State → α} (hK : Apart K) (p : Port) (code number tag : Byte) (payload : List Byte) (note : Bool)
    (s : State) : K (judgeFrame p code number tag payload note s) = K s := by
  rcases judge_cases p code number tag payload note s with ⟨a, h⟩ | ⟨row, asked, _, _, _, h⟩
  · rw [h, State.respond, hK.port]
  · rw [h]
    cases asked <;> simp only [State.carryOut, State.respond, State.openedSession, State.dispatch, State.closeAccepted,
      hK.port, hK.queue, startTeardown_keeps hK]

theorem put_keeps {K : State → α} (hK : Apart K) (p : Port) (n : Nat) (f : Bool → State → State) (s : State)
    (hf : ∀ b t, K (f b t) = K t) : K (putTransaction p n f s) = K s := by
  rcases putTransaction_cases p n f s with h | h | ⟨_, _, h⟩ <;>
    simp only [h, hf, State.clockOut, State.flagDiscard, hK.port]

theorem take_keeps {K : State → α} (hK : Apart K) (p : Port) (f : List Byte) (note : Bool) (s : State) :
    K (takeFrame p f note s) = K s := by
  unfold takeFrame; split
  · rw [State.respond, hK.port]
  · exact judge_keeps hK ..

/-- The commands that can change the reset, supply and time fields. -/
def touchesTime : Instr → Bool
  | .rstnAssert | .rstnRelease | .supplyBelowRange | .supplyReturnToRange | .startupPeriodEnd | .leaseTick => true
  | _ => false

theorem keeps_time (c : Instr) (s : State) (hc : touchesTime c = false) : ∃ t, exec c s = .next t ∧ (t.rstn, t.supplyOk, t.timebase, t.sinceTick, t.starting) = (s.rstn, s.supplyOk, s.timebase, s.sinceTick, s.starting) := by
  have hK : Apart (fun s : State => (s.rstn, s.supplyOk, s.timebase, s.sinceTick, s.starting)) := ⟨fun _ _ _ => rfl, fun _ _ _ => rfl⟩
  cases c <;> simp only [exec]
  case put => exact ⟨_, rfl, put_keeps hK _ _ _ _ fun b s => take_keeps hK ..⟩
  case get => exact ⟨_, rfl, by unfold readTransaction; (try dsimp only); split <;> rfl⟩
  case peek => exact ⟨_, rfl, by unfold readTransaction; (try dsimp only); split <;> rfl⟩
  case voidTransaction => 
    unfold execVoidTransaction; split
    · exact ⟨_, rfl, rfl⟩
    · split
      · exact ⟨_, rfl, rfl⟩
      · exact ⟨_, rfl, by split <;> rfl⟩
  case identify => exact ⟨_, rfl, put_keeps hK _ _ _ _ fun b s => judge_keeps hK ..⟩
  case openSession => exact ⟨_, rfl, put_keeps hK _ _ _ _ fun b s => judge_keeps hK ..⟩
  case closeSession => exact ⟨_, rfl, put_keeps hK _ _ _ _ fun b s => judge_keeps hK ..⟩
  case teardownStage2 => exact ⟨_, rfl, by split <;> simp⟩
  case teardownStage3 => exact ⟨_, rfl, by split <;> simp⟩
  case teardownStage4 => unfold execTeardownStage4; split <;> (try split) <;> exact ⟨_, rfl, by simp⟩
  case teardownStage5 => exact ⟨_, rfl, by split <;> simp⟩
  case teardownStage6 => exact ⟨_, rfl, by split <;> simp⟩
  case prstnAssert => unfold execPrstnAssert; dsimp only; split
                      · exact ⟨_, rfl, rfl⟩
                      · exact ⟨_, rfl, by split <;> first | rfl | exact startTeardown_keeps hK ..⟩
  case prstnRelease => exact ⟨_, rfl, rfl⟩
  case rstnAssert => exact nomatch (show true = false from hc)
  case rstnRelease => exact nomatch (show true = false from hc)
  case supplyBelowRange => exact nomatch (show true = false from hc)
  case startupPeriodEnd => exact nomatch (show true = false from hc)
  case configureAxis => exact claim_keeps hK fun s => by unfold configureAxis; (try dsimp only); (repeat' split) <;> rfl
  case start => exact claim_keeps hK fun s => by unfold startAxis; (try dsimp only); (repeat' split) <;> rfl
  case stop => exact claim_keeps hK fun s => by unfold stopAxis; (try dsimp only); (repeat' split) <;> rfl
  case resume => exact claim_keeps hK fun s => by unfold resumeAxis; (try dsimp only); (repeat' split) <;> rfl
  case setOffset => exact claim_keeps hK fun s => by unfold setOffset; (try dsimp only); (repeat' split) <;> rfl
  case readAxes => exact claim_keeps hK fun s => rfl
  case subscribeAxis => exact claim_keeps hK fun s => rfl
  case unsubscribeAxis => exact claim_keeps hK fun s => by unfold unsubscribeAxis; (try dsimp only); (repeat' split) <;> rfl
  case align => exact claim_keeps hK fun s => by unfold alignAxis; (try dsimp only); (repeat' split) <;> rfl
  case cancelAlign => exact claim_keeps hK fun s => by unfold cancelAlign; (try dsimp only); (repeat' split) <;> rfl
  case encoderStep => exact ⟨_, rfl, rfl⟩
  case skippedState => exact ⟨_, rfl, rfl⟩
  case lineFaultRise => unfold execLineFaultRise; (try dsimp only); split <;> exact ⟨_, rfl, rfl⟩
  case lineFaultFall => exact ⟨_, rfl, rfl⟩
  case indexPulse => exact ⟨_, rfl, rfl⟩
  case sample => unfold execSample; split <;> exact ⟨_, rfl, rfl⟩
  case rebaseNotice => unfold execRebaseNotice; split <;> exact ⟨_, rfl, rfl⟩
  case freezeNotice => unfold execFreezeNotice; split <;> exact ⟨_, rfl, rfl⟩
  case thawNotice => unfold execThawNotice; split <;> exact ⟨_, rfl, rfl⟩
  case defineZone => exact claim_keeps hK fun s => by unfold defineZone; (try dsimp only); (repeat' split) <;> rfl
  case modifyZone => exact claim_keeps hK fun s => by unfold modifyZone; (try dsimp only); (repeat' split) <;> rfl
  case deleteZone => exact claim_keeps hK fun s => by unfold deleteZone; (try dsimp only); (repeat' split) <;> rfl
  case readZone => exact claim_keeps hK fun s => by unfold readZone; (try dsimp only); (repeat' split) <;> rfl
  case listZones => exact claim_keeps hK fun s => rfl
  case subscribeZone => exact claim_keeps hK fun s => by unfold subscribeZone; (try dsimp only); (repeat' split) <;> rfl
  case unsubscribeZone => exact claim_keeps hK fun s => by unfold unsubscribeZone; (try dsimp only); (repeat' split) <;> rfl
  case claimOutput => exact claim_keeps hK fun s => by unfold claimOutput; (try dsimp only); (repeat' split) <;> rfl
  case renewLease => exact claim_keeps hK fun s => by unfold renewLease; (try dsimp only); (repeat' split) <;> rfl
  case releaseOutput => exact claim_keeps hK fun s => by unfold releaseOutput; (try dsimp only); (repeat' split) <;> rfl
  case cancelWait => exact claim_keeps hK fun s => by unfold cancelWait; (try dsimp only); (repeat' split) <;> rfl
  case mapOutput => exact claim_keeps hK fun s => by unfold mapOutput; (try dsimp only); (repeat' split) <;> rfl
  case forceOutput => exact claim_keeps hK fun s => by unfold forceOutput; (try dsimp only); (repeat' split) <;> rfl
  case configureOutput => exact claim_keeps hK fun s => by unfold configureOutput; (try dsimp only); (repeat' split) <;> rfl
  case readOutputs => exact claim_keeps hK fun s => rfl
  case leaseTick => exact nomatch (show true = false from hc)
  case leaseExpiry =>
    unfold execLeaseExpiry; split
    · refine ⟨_, rfl, ?_⟩; unfold takeExpiry; (try dsimp only); (repeat' split) <;> rfl
    · exact ⟨_, rfl, rfl⟩
  case oholdChange => exact ⟨_, rfl, rfl⟩
  case eventAppend => unfold execEventAppend; (try dsimp only); split <;> exact ⟨_, rfl, rfl⟩
  case fetchEvents => exact claim_keeps hK fun s => by unfold fetchEvents; (try dsimp only); (repeat' split) <;> rfl
  case ackEvents => exact claim_keeps hK fun s => by unfold ackEvents; (try dsimp only); (repeat' split) <;> rfl
  case setAttention => exact claim_keeps hK fun s => rfl
  case triggerEdge => unfold execTriggerEdge; (try dsimp only); split <;> exact ⟨_, rfl, rfl⟩
  case latchSnapshotWrite => unfold execLatchSnapshotWrite; (try dsimp only); split <;> exact ⟨_, rfl, rfl⟩
  case zoneCaptureClaim => unfold execZoneCaptureClaim; (try dsimp only); split <;> exact ⟨_, rfl, rfl⟩
  case configureTrigger => exact claim_keeps hK fun s => by unfold configureTrigger; (try dsimp only); (repeat' split) <;> rfl
  case attachCursor => exact claim_keeps hK fun s => rfl
  case detachCursor => exact claim_keeps hK fun s => by unfold detachCursor; (try dsimp only); (repeat' split) <;> rfl
  case readCaptures => exact claim_keeps hK fun s => by unfold readCaptures; (try dsimp only); (repeat' split) <;> rfl
  case postMessage => exact claim_keeps hK fun s => by unfold postMessage; (try dsimp only); (repeat' split) <;> rfl
  case takeMessage => exact claim_keeps hK fun s => by unfold takeMessage; (try dsimp only); (repeat' split) <;> rfl
  case withdrawMessage => exact claim_keeps hK fun s => by unfold withdrawMessage; (try dsimp only); (repeat' split) <;> rfl
  case supplyReturnToRange => exact nomatch (show true = false from hc)

/-- The commands that can change the axis units. -/
def touchesAxes : Instr → Bool
  | .rstnAssert | .supplyBelowRange | .configureAxis .. | .start .. | .stop .. | .resume .. | .setOffset ..
  | .subscribeAxis .. | .unsubscribeAxis .. | .align .. | .cancelAlign .. | .encoderStep .. | .skippedState ..
  | .lineFaultRise .. | .lineFaultFall .. | .indexPulse .. | .sample .. | .rebaseNotice .. | .freezeNotice ..
  | .thawNotice .. | .teardownStage4 .. => true
  | _ => false

theorem keeps_axes (c : Instr) (s : State) (hc : touchesAxes c = false) : ∃ t, exec c s = .next t ∧ t.axes = s.axes := by
  have hK : Apart (fun s : State => s.axes) := ⟨fun _ _ _ => rfl, fun _ _ _ => rfl⟩
  cases c <;> simp only [exec]
  case put => exact ⟨_, rfl, put_keeps hK _ _ _ _ fun b s => take_keeps hK ..⟩
  case get => exact ⟨_, rfl, by unfold readTransaction; (try dsimp only); split <;> rfl⟩
  case peek => exact ⟨_, rfl, by unfold readTransaction; (try dsimp only); split <;> rfl⟩
  case voidTransaction => 
    unfold execVoidTransaction; split
    · exact ⟨_, rfl, rfl⟩
    · split
      · exact ⟨_, rfl, rfl⟩
      · exact ⟨_, rfl, by split <;> rfl⟩
  case identify => exact ⟨_, rfl, put_keeps hK _ _ _ _ fun b s => judge_keeps hK ..⟩
  case openSession => exact ⟨_, rfl, put_keeps hK _ _ _ _ fun b s => judge_keeps hK ..⟩
  case closeSession => exact ⟨_, rfl, put_keeps hK _ _ _ _ fun b s => judge_keeps hK ..⟩
  case teardownStage2 => exact ⟨_, rfl, by split <;> simp⟩
  case teardownStage3 => exact ⟨_, rfl, by split <;> simp⟩
  case teardownStage4 => exact nomatch (show true = false from hc)
  case teardownStage5 => exact ⟨_, rfl, by split <;> simp⟩
  case teardownStage6 => exact ⟨_, rfl, by split <;> simp⟩
  case prstnAssert => unfold execPrstnAssert; dsimp only; split
                      · exact ⟨_, rfl, rfl⟩
                      · exact ⟨_, rfl, by split <;> first | rfl | exact startTeardown_keeps hK ..⟩
  case prstnRelease => exact ⟨_, rfl, rfl⟩
  case rstnAssert => exact nomatch (show true = false from hc)
  case rstnRelease =>
    unfold execRstnRelease; split
    all_goals refine ⟨_, rfl, ?_⟩
    all_goals first | rfl | (unfold State.begin; split <;> rfl)
  case supplyBelowRange => exact nomatch (show true = false from hc)
  case startupPeriodEnd => unfold execStartupPeriodEnd; split <;> exact ⟨_, rfl, rfl⟩
  case configureAxis => exact nomatch (show true = false from hc)
  case start => exact nomatch (show true = false from hc)
  case stop => exact nomatch (show true = false from hc)
  case resume => exact nomatch (show true = false from hc)
  case setOffset => exact nomatch (show true = false from hc)
  case readAxes => exact claim_keeps hK fun s => rfl
  case subscribeAxis => exact nomatch (show true = false from hc)
  case unsubscribeAxis => exact nomatch (show true = false from hc)
  case align => exact nomatch (show true = false from hc)
  case cancelAlign => exact nomatch (show true = false from hc)
  case encoderStep => exact nomatch (show true = false from hc)
  case skippedState => exact nomatch (show true = false from hc)
  case lineFaultRise => exact nomatch (show true = false from hc)
  case lineFaultFall => exact nomatch (show true = false from hc)
  case indexPulse => exact nomatch (show true = false from hc)
  case sample => exact nomatch (show true = false from hc)
  case rebaseNotice => exact nomatch (show true = false from hc)
  case freezeNotice => exact nomatch (show true = false from hc)
  case thawNotice => exact nomatch (show true = false from hc)
  case defineZone => exact claim_keeps hK fun s => by unfold defineZone; (try dsimp only); (repeat' split) <;> rfl
  case modifyZone => exact claim_keeps hK fun s => by unfold modifyZone; (try dsimp only); (repeat' split) <;> rfl
  case deleteZone => exact claim_keeps hK fun s => by unfold deleteZone; (try dsimp only); (repeat' split) <;> rfl
  case readZone => exact claim_keeps hK fun s => by unfold readZone; (try dsimp only); (repeat' split) <;> rfl
  case listZones => exact claim_keeps hK fun s => rfl
  case subscribeZone => exact claim_keeps hK fun s => by unfold subscribeZone; (try dsimp only); (repeat' split) <;> rfl
  case unsubscribeZone => exact claim_keeps hK fun s => by unfold unsubscribeZone; (try dsimp only); (repeat' split) <;> rfl
  case claimOutput => exact claim_keeps hK fun s => by unfold claimOutput; (try dsimp only); (repeat' split) <;> rfl
  case renewLease => exact claim_keeps hK fun s => by unfold renewLease; (try dsimp only); (repeat' split) <;> rfl
  case releaseOutput => exact claim_keeps hK fun s => by unfold releaseOutput; (try dsimp only); (repeat' split) <;> rfl
  case cancelWait => exact claim_keeps hK fun s => by unfold cancelWait; (try dsimp only); (repeat' split) <;> rfl
  case mapOutput => exact claim_keeps hK fun s => by unfold mapOutput; (try dsimp only); (repeat' split) <;> rfl
  case forceOutput => exact claim_keeps hK fun s => by unfold forceOutput; (try dsimp only); (repeat' split) <;> rfl
  case configureOutput => exact claim_keeps hK fun s => by unfold configureOutput; (try dsimp only); (repeat' split) <;> rfl
  case readOutputs => exact claim_keeps hK fun s => rfl
  case leaseTick => exact ⟨_, rfl, by split <;> rfl⟩
  case leaseExpiry =>
    unfold execLeaseExpiry; split
    · refine ⟨_, rfl, ?_⟩; unfold takeExpiry; (try dsimp only); (repeat' split) <;> rfl
    · exact ⟨_, rfl, rfl⟩
  case oholdChange => exact ⟨_, rfl, rfl⟩
  case eventAppend => unfold execEventAppend; (try dsimp only); split <;> exact ⟨_, rfl, rfl⟩
  case fetchEvents => exact claim_keeps hK fun s => by unfold fetchEvents; (try dsimp only); (repeat' split) <;> rfl
  case ackEvents => exact claim_keeps hK fun s => by unfold ackEvents; (try dsimp only); (repeat' split) <;> rfl
  case setAttention => exact claim_keeps hK fun s => rfl
  case triggerEdge => unfold execTriggerEdge; (try dsimp only); split <;> exact ⟨_, rfl, rfl⟩
  case latchSnapshotWrite => unfold execLatchSnapshotWrite; (try dsimp only); split <;> exact ⟨_, rfl, rfl⟩
  case zoneCaptureClaim => unfold execZoneCaptureClaim; (try dsimp only); split <;> exact ⟨_, rfl, rfl⟩
  case configureTrigger => exact claim_keeps hK fun s => by unfold configureTrigger; (try dsimp only); (repeat' split) <;> rfl
  case attachCursor => exact claim_keeps hK fun s => rfl
  case detachCursor => exact claim_keeps hK fun s => by unfold detachCursor; (try dsimp only); (repeat' split) <;> rfl
  case readCaptures => exact claim_keeps hK fun s => by unfold readCaptures; (try dsimp only); (repeat' split) <;> rfl
  case postMessage => exact claim_keeps hK fun s => by unfold postMessage; (try dsimp only); (repeat' split) <;> rfl
  case takeMessage => exact claim_keeps hK fun s => by unfold takeMessage; (try dsimp only); (repeat' split) <;> rfl
  case withdrawMessage => exact claim_keeps hK fun s => by unfold withdrawMessage; (try dsimp only); (repeat' split) <;> rfl
  case supplyReturnToRange =>
    unfold execSupplyReturnToRange; split
    all_goals refine ⟨_, rfl, ?_⟩
    all_goals first | rfl | (unfold State.begin; split <;> rfl)

/-- The commands that can change the views of the axes. -/
def touchesViews : Instr → Bool
  | .rstnAssert | .supplyBelowRange | .sample .. | .rebaseNotice .. | .freezeNotice .. | .thawNotice .. => true
  | _ => false

theorem keeps_views (c : Instr) (s : State) (hc : touchesViews c = false) : ∃ t, exec c s = .next t ∧ t.views = s.views := by
  have hK : Apart (fun s : State => s.views) := ⟨fun _ _ _ => rfl, fun _ _ _ => rfl⟩
  cases c <;> simp only [exec]
  case put => exact ⟨_, rfl, put_keeps hK _ _ _ _ fun b s => take_keeps hK ..⟩
  case get => exact ⟨_, rfl, by unfold readTransaction; (try dsimp only); split <;> rfl⟩
  case peek => exact ⟨_, rfl, by unfold readTransaction; (try dsimp only); split <;> rfl⟩
  case voidTransaction => 
    unfold execVoidTransaction; split
    · exact ⟨_, rfl, rfl⟩
    · split
      · exact ⟨_, rfl, rfl⟩
      · exact ⟨_, rfl, by split <;> rfl⟩
  case identify => exact ⟨_, rfl, put_keeps hK _ _ _ _ fun b s => judge_keeps hK ..⟩
  case openSession => exact ⟨_, rfl, put_keeps hK _ _ _ _ fun b s => judge_keeps hK ..⟩
  case closeSession => exact ⟨_, rfl, put_keeps hK _ _ _ _ fun b s => judge_keeps hK ..⟩
  case teardownStage2 => exact ⟨_, rfl, by split <;> simp⟩
  case teardownStage3 => exact ⟨_, rfl, by split <;> simp⟩
  case teardownStage4 => unfold execTeardownStage4; split <;> (try split) <;> exact ⟨_, rfl, by simp⟩
  case teardownStage5 => exact ⟨_, rfl, by split <;> simp⟩
  case teardownStage6 => exact ⟨_, rfl, by split <;> simp⟩
  case prstnAssert => unfold execPrstnAssert; dsimp only; split
                      · exact ⟨_, rfl, rfl⟩
                      · exact ⟨_, rfl, by split <;> first | rfl | exact startTeardown_keeps hK ..⟩
  case prstnRelease => exact ⟨_, rfl, rfl⟩
  case rstnAssert => exact nomatch (show true = false from hc)
  case rstnRelease =>
    unfold execRstnRelease; split
    all_goals refine ⟨_, rfl, ?_⟩
    all_goals first | rfl | (unfold State.begin; split <;> rfl)
  case supplyBelowRange => exact nomatch (show true = false from hc)
  case startupPeriodEnd => unfold execStartupPeriodEnd; split <;> exact ⟨_, rfl, rfl⟩
  case configureAxis => exact claim_keeps hK fun s => by unfold configureAxis; (try dsimp only); (repeat' split) <;> rfl
  case start => exact claim_keeps hK fun s => by unfold startAxis; (try dsimp only); (repeat' split) <;> rfl
  case stop => exact claim_keeps hK fun s => by unfold stopAxis; (try dsimp only); (repeat' split) <;> rfl
  case resume => exact claim_keeps hK fun s => by unfold resumeAxis; (try dsimp only); (repeat' split) <;> rfl
  case setOffset => exact claim_keeps hK fun s => by unfold setOffset; (try dsimp only); (repeat' split) <;> rfl
  case readAxes => exact claim_keeps hK fun s => rfl
  case subscribeAxis => exact claim_keeps hK fun s => rfl
  case unsubscribeAxis => exact claim_keeps hK fun s => by unfold unsubscribeAxis; (try dsimp only); (repeat' split) <;> rfl
  case align => exact claim_keeps hK fun s => by unfold alignAxis; (try dsimp only); (repeat' split) <;> rfl
  case cancelAlign => exact claim_keeps hK fun s => by unfold cancelAlign; (try dsimp only); (repeat' split) <;> rfl
  case encoderStep => exact ⟨_, rfl, rfl⟩
  case skippedState => exact ⟨_, rfl, rfl⟩
  case lineFaultRise => unfold execLineFaultRise; (try dsimp only); split <;> exact ⟨_, rfl, rfl⟩
  case lineFaultFall => exact ⟨_, rfl, rfl⟩
  case indexPulse => exact ⟨_, rfl, rfl⟩
  case sample => exact nomatch (show true = false from hc)
  case rebaseNotice => exact nomatch (show true = false from hc)
  case freezeNotice => exact nomatch (show true = false from hc)
  case thawNotice => exact nomatch (show true = false from hc)
  case defineZone => exact claim_keeps hK fun s => by unfold defineZone; (try dsimp only); (repeat' split) <;> rfl
  case modifyZone => exact claim_keeps hK fun s => by unfold modifyZone; (try dsimp only); (repeat' split) <;> rfl
  case deleteZone => exact claim_keeps hK fun s => by unfold deleteZone; (try dsimp only); (repeat' split) <;> rfl
  case readZone => exact claim_keeps hK fun s => by unfold readZone; (try dsimp only); (repeat' split) <;> rfl
  case listZones => exact claim_keeps hK fun s => rfl
  case subscribeZone => exact claim_keeps hK fun s => by unfold subscribeZone; (try dsimp only); (repeat' split) <;> rfl
  case unsubscribeZone => exact claim_keeps hK fun s => by unfold unsubscribeZone; (try dsimp only); (repeat' split) <;> rfl
  case claimOutput => exact claim_keeps hK fun s => by unfold claimOutput; (try dsimp only); (repeat' split) <;> rfl
  case renewLease => exact claim_keeps hK fun s => by unfold renewLease; (try dsimp only); (repeat' split) <;> rfl
  case releaseOutput => exact claim_keeps hK fun s => by unfold releaseOutput; (try dsimp only); (repeat' split) <;> rfl
  case cancelWait => exact claim_keeps hK fun s => by unfold cancelWait; (try dsimp only); (repeat' split) <;> rfl
  case mapOutput => exact claim_keeps hK fun s => by unfold mapOutput; (try dsimp only); (repeat' split) <;> rfl
  case forceOutput => exact claim_keeps hK fun s => by unfold forceOutput; (try dsimp only); (repeat' split) <;> rfl
  case configureOutput => exact claim_keeps hK fun s => by unfold configureOutput; (try dsimp only); (repeat' split) <;> rfl
  case readOutputs => exact claim_keeps hK fun s => rfl
  case leaseTick => exact ⟨_, rfl, by split <;> rfl⟩
  case leaseExpiry =>
    unfold execLeaseExpiry; split
    · refine ⟨_, rfl, ?_⟩; unfold takeExpiry; (try dsimp only); (repeat' split) <;> rfl
    · exact ⟨_, rfl, rfl⟩
  case oholdChange => exact ⟨_, rfl, rfl⟩
  case eventAppend => unfold execEventAppend; (try dsimp only); split <;> exact ⟨_, rfl, rfl⟩
  case fetchEvents => exact claim_keeps hK fun s => by unfold fetchEvents; (try dsimp only); (repeat' split) <;> rfl
  case ackEvents => exact claim_keeps hK fun s => by unfold ackEvents; (try dsimp only); (repeat' split) <;> rfl
  case setAttention => exact claim_keeps hK fun s => rfl
  case triggerEdge => unfold execTriggerEdge; (try dsimp only); split <;> exact ⟨_, rfl, rfl⟩
  case latchSnapshotWrite => unfold execLatchSnapshotWrite; (try dsimp only); split <;> exact ⟨_, rfl, rfl⟩
  case zoneCaptureClaim => unfold execZoneCaptureClaim; (try dsimp only); split <;> exact ⟨_, rfl, rfl⟩
  case configureTrigger => exact claim_keeps hK fun s => by unfold configureTrigger; (try dsimp only); (repeat' split) <;> rfl
  case attachCursor => exact claim_keeps hK fun s => rfl
  case detachCursor => exact claim_keeps hK fun s => by unfold detachCursor; (try dsimp only); (repeat' split) <;> rfl
  case readCaptures => exact claim_keeps hK fun s => by unfold readCaptures; (try dsimp only); (repeat' split) <;> rfl
  case postMessage => exact claim_keeps hK fun s => by unfold postMessage; (try dsimp only); (repeat' split) <;> rfl
  case takeMessage => exact claim_keeps hK fun s => by unfold takeMessage; (try dsimp only); (repeat' split) <;> rfl
  case withdrawMessage => exact claim_keeps hK fun s => by unfold withdrawMessage; (try dsimp only); (repeat' split) <;> rfl
  case supplyReturnToRange =>
    unfold execSupplyReturnToRange; split
    all_goals refine ⟨_, rfl, ?_⟩
    all_goals first | rfl | (unfold State.begin; split <;> rfl)

/-- The commands that can change the zone table. -/
def touchesZones : Instr → Bool
  | .rstnAssert | .supplyBelowRange | .sample .. | .rebaseNotice .. | .freezeNotice .. | .thawNotice ..
  | .defineZone .. | .modifyZone .. | .deleteZone .. | .subscribeZone .. | .unsubscribeZone .. | .teardownStage5 .. => true
  | _ => false

theorem keeps_zones (c : Instr) (s : State) (hc : touchesZones c = false) : ∃ t, exec c s = .next t ∧ t.zones = s.zones := by
  have hK : Apart (fun s : State => s.zones) := ⟨fun _ _ _ => rfl, fun _ _ _ => rfl⟩
  cases c <;> simp only [exec]
  case put => exact ⟨_, rfl, put_keeps hK _ _ _ _ fun b s => take_keeps hK ..⟩
  case get => exact ⟨_, rfl, by unfold readTransaction; (try dsimp only); split <;> rfl⟩
  case peek => exact ⟨_, rfl, by unfold readTransaction; (try dsimp only); split <;> rfl⟩
  case voidTransaction => 
    unfold execVoidTransaction; split
    · exact ⟨_, rfl, rfl⟩
    · split
      · exact ⟨_, rfl, rfl⟩
      · exact ⟨_, rfl, by split <;> rfl⟩
  case identify => exact ⟨_, rfl, put_keeps hK _ _ _ _ fun b s => judge_keeps hK ..⟩
  case openSession => exact ⟨_, rfl, put_keeps hK _ _ _ _ fun b s => judge_keeps hK ..⟩
  case closeSession => exact ⟨_, rfl, put_keeps hK _ _ _ _ fun b s => judge_keeps hK ..⟩
  case teardownStage2 => exact ⟨_, rfl, by split <;> simp⟩
  case teardownStage3 => exact ⟨_, rfl, by split <;> simp⟩
  case teardownStage4 => unfold execTeardownStage4; split <;> (try split) <;> exact ⟨_, rfl, by simp⟩
  case teardownStage5 => exact nomatch (show true = false from hc)
  case teardownStage6 => exact ⟨_, rfl, by split <;> simp⟩
  case prstnAssert => unfold execPrstnAssert; dsimp only; split
                      · exact ⟨_, rfl, rfl⟩
                      · exact ⟨_, rfl, by split <;> first | rfl | exact startTeardown_keeps hK ..⟩
  case prstnRelease => exact ⟨_, rfl, rfl⟩
  case rstnAssert => exact nomatch (show true = false from hc)
  case rstnRelease =>
    unfold execRstnRelease; split
    all_goals refine ⟨_, rfl, ?_⟩
    all_goals first | rfl | (unfold State.begin; split <;> rfl)
  case supplyBelowRange => exact nomatch (show true = false from hc)
  case startupPeriodEnd => unfold execStartupPeriodEnd; split <;> exact ⟨_, rfl, rfl⟩
  case configureAxis => exact claim_keeps hK fun s => by unfold configureAxis; (try dsimp only); (repeat' split) <;> rfl
  case start => exact claim_keeps hK fun s => by unfold startAxis; (try dsimp only); (repeat' split) <;> rfl
  case stop => exact claim_keeps hK fun s => by unfold stopAxis; (try dsimp only); (repeat' split) <;> rfl
  case resume => exact claim_keeps hK fun s => by unfold resumeAxis; (try dsimp only); (repeat' split) <;> rfl
  case setOffset => exact claim_keeps hK fun s => by unfold setOffset; (try dsimp only); (repeat' split) <;> rfl
  case readAxes => exact claim_keeps hK fun s => rfl
  case subscribeAxis => exact claim_keeps hK fun s => rfl
  case unsubscribeAxis => exact claim_keeps hK fun s => by unfold unsubscribeAxis; (try dsimp only); (repeat' split) <;> rfl
  case align => exact claim_keeps hK fun s => by unfold alignAxis; (try dsimp only); (repeat' split) <;> rfl
  case cancelAlign => exact claim_keeps hK fun s => by unfold cancelAlign; (try dsimp only); (repeat' split) <;> rfl
  case encoderStep => exact ⟨_, rfl, rfl⟩
  case skippedState => exact ⟨_, rfl, rfl⟩
  case lineFaultRise => unfold execLineFaultRise; (try dsimp only); split <;> exact ⟨_, rfl, rfl⟩
  case lineFaultFall => exact ⟨_, rfl, rfl⟩
  case indexPulse => exact ⟨_, rfl, rfl⟩
  case sample => exact nomatch (show true = false from hc)
  case rebaseNotice => exact nomatch (show true = false from hc)
  case freezeNotice => exact nomatch (show true = false from hc)
  case thawNotice => exact nomatch (show true = false from hc)
  case defineZone => exact nomatch (show true = false from hc)
  case modifyZone => exact nomatch (show true = false from hc)
  case deleteZone => exact nomatch (show true = false from hc)
  case readZone => exact claim_keeps hK fun s => by unfold readZone; (try dsimp only); (repeat' split) <;> rfl
  case listZones => exact claim_keeps hK fun s => rfl
  case subscribeZone => exact nomatch (show true = false from hc)
  case unsubscribeZone => exact nomatch (show true = false from hc)
  case claimOutput => exact claim_keeps hK fun s => by unfold claimOutput; (try dsimp only); (repeat' split) <;> rfl
  case renewLease => exact claim_keeps hK fun s => by unfold renewLease; (try dsimp only); (repeat' split) <;> rfl
  case releaseOutput => exact claim_keeps hK fun s => by unfold releaseOutput; (try dsimp only); (repeat' split) <;> rfl
  case cancelWait => exact claim_keeps hK fun s => by unfold cancelWait; (try dsimp only); (repeat' split) <;> rfl
  case mapOutput => exact claim_keeps hK fun s => by unfold mapOutput; (try dsimp only); (repeat' split) <;> rfl
  case forceOutput => exact claim_keeps hK fun s => by unfold forceOutput; (try dsimp only); (repeat' split) <;> rfl
  case configureOutput => exact claim_keeps hK fun s => by unfold configureOutput; (try dsimp only); (repeat' split) <;> rfl
  case readOutputs => exact claim_keeps hK fun s => rfl
  case leaseTick => exact ⟨_, rfl, by split <;> rfl⟩
  case leaseExpiry =>
    unfold execLeaseExpiry; split
    · refine ⟨_, rfl, ?_⟩; unfold takeExpiry; (try dsimp only); (repeat' split) <;> rfl
    · exact ⟨_, rfl, rfl⟩
  case oholdChange => exact ⟨_, rfl, rfl⟩
  case eventAppend => unfold execEventAppend; (try dsimp only); split <;> exact ⟨_, rfl, rfl⟩
  case fetchEvents => exact claim_keeps hK fun s => by unfold fetchEvents; (try dsimp only); (repeat' split) <;> rfl
  case ackEvents => exact claim_keeps hK fun s => by unfold ackEvents; (try dsimp only); (repeat' split) <;> rfl
  case setAttention => exact claim_keeps hK fun s => rfl
  case triggerEdge => unfold execTriggerEdge; (try dsimp only); split <;> exact ⟨_, rfl, rfl⟩
  case latchSnapshotWrite => unfold execLatchSnapshotWrite; (try dsimp only); split <;> exact ⟨_, rfl, rfl⟩
  case zoneCaptureClaim => unfold execZoneCaptureClaim; (try dsimp only); split <;> exact ⟨_, rfl, rfl⟩
  case configureTrigger => exact claim_keeps hK fun s => by unfold configureTrigger; (try dsimp only); (repeat' split) <;> rfl
  case attachCursor => exact claim_keeps hK fun s => rfl
  case detachCursor => exact claim_keeps hK fun s => by unfold detachCursor; (try dsimp only); (repeat' split) <;> rfl
  case readCaptures => exact claim_keeps hK fun s => by unfold readCaptures; (try dsimp only); (repeat' split) <;> rfl
  case postMessage => exact claim_keeps hK fun s => by unfold postMessage; (try dsimp only); (repeat' split) <;> rfl
  case takeMessage => exact claim_keeps hK fun s => by unfold takeMessage; (try dsimp only); (repeat' split) <;> rfl
  case withdrawMessage => exact claim_keeps hK fun s => by unfold withdrawMessage; (try dsimp only); (repeat' split) <;> rfl
  case supplyReturnToRange =>
    unfold execSupplyReturnToRange; split
    all_goals refine ⟨_, rfl, ?_⟩
    all_goals first | rfl | (unfold State.begin; split <;> rfl)

/-- The commands that can change the output records, the drivers and OHOLD. -/
def touchesLines : Instr → Bool
  | .rstnAssert | .supplyBelowRange | .sample .. | .rebaseNotice .. | .freezeNotice .. | .thawNotice ..
  | .modifyZone .. | .deleteZone .. | .claimOutput .. | .renewLease .. | .releaseOutput .. | .cancelWait ..
  | .mapOutput .. | .forceOutput .. | .configureOutput .. | .leaseTick | .leaseExpiry .. | .oholdChange ..
  | .teardownStage5 .. => true
  | _ => false

theorem keeps_lines (c : Instr) (s : State) (hc : touchesLines c = false) : ∃ t, exec c s = .next t ∧ (t.outputs, t.drivers, t.ohold) = (s.outputs, s.drivers, s.ohold) := by
  have hK : Apart (fun s : State => (s.outputs, s.drivers, s.ohold)) := ⟨fun _ _ _ => rfl, fun _ _ _ => rfl⟩
  cases c <;> simp only [exec]
  case put => exact ⟨_, rfl, put_keeps hK _ _ _ _ fun b s => take_keeps hK ..⟩
  case get => exact ⟨_, rfl, by unfold readTransaction; (try dsimp only); split <;> rfl⟩
  case peek => exact ⟨_, rfl, by unfold readTransaction; (try dsimp only); split <;> rfl⟩
  case voidTransaction => 
    unfold execVoidTransaction; split
    · exact ⟨_, rfl, rfl⟩
    · split
      · exact ⟨_, rfl, rfl⟩
      · exact ⟨_, rfl, by split <;> rfl⟩
  case identify => exact ⟨_, rfl, put_keeps hK _ _ _ _ fun b s => judge_keeps hK ..⟩
  case openSession => exact ⟨_, rfl, put_keeps hK _ _ _ _ fun b s => judge_keeps hK ..⟩
  case closeSession => exact ⟨_, rfl, put_keeps hK _ _ _ _ fun b s => judge_keeps hK ..⟩
  case teardownStage2 => exact ⟨_, rfl, by split <;> simp⟩
  case teardownStage3 => exact ⟨_, rfl, by split <;> simp⟩
  case teardownStage4 => unfold execTeardownStage4; split <;> (try split) <;> exact ⟨_, rfl, by simp⟩
  case teardownStage5 => exact nomatch (show true = false from hc)
  case teardownStage6 => exact ⟨_, rfl, by split <;> simp⟩
  case prstnAssert => unfold execPrstnAssert; dsimp only; split
                      · exact ⟨_, rfl, rfl⟩
                      · exact ⟨_, rfl, by split <;> first | rfl | exact startTeardown_keeps hK ..⟩
  case prstnRelease => exact ⟨_, rfl, rfl⟩
  case rstnAssert => exact nomatch (show true = false from hc)
  case rstnRelease =>
    unfold execRstnRelease; split
    all_goals refine ⟨_, rfl, ?_⟩
    all_goals first | rfl | (unfold State.begin; split <;> rfl)
  case supplyBelowRange => exact nomatch (show true = false from hc)
  case startupPeriodEnd => unfold execStartupPeriodEnd; split <;> exact ⟨_, rfl, rfl⟩
  case configureAxis => exact claim_keeps hK fun s => by unfold configureAxis; (try dsimp only); (repeat' split) <;> rfl
  case start => exact claim_keeps hK fun s => by unfold startAxis; (try dsimp only); (repeat' split) <;> rfl
  case stop => exact claim_keeps hK fun s => by unfold stopAxis; (try dsimp only); (repeat' split) <;> rfl
  case resume => exact claim_keeps hK fun s => by unfold resumeAxis; (try dsimp only); (repeat' split) <;> rfl
  case setOffset => exact claim_keeps hK fun s => by unfold setOffset; (try dsimp only); (repeat' split) <;> rfl
  case readAxes => exact claim_keeps hK fun s => rfl
  case subscribeAxis => exact claim_keeps hK fun s => rfl
  case unsubscribeAxis => exact claim_keeps hK fun s => by unfold unsubscribeAxis; (try dsimp only); (repeat' split) <;> rfl
  case align => exact claim_keeps hK fun s => by unfold alignAxis; (try dsimp only); (repeat' split) <;> rfl
  case cancelAlign => exact claim_keeps hK fun s => by unfold cancelAlign; (try dsimp only); (repeat' split) <;> rfl
  case encoderStep => exact ⟨_, rfl, rfl⟩
  case skippedState => exact ⟨_, rfl, rfl⟩
  case lineFaultRise => unfold execLineFaultRise; (try dsimp only); split <;> exact ⟨_, rfl, rfl⟩
  case lineFaultFall => exact ⟨_, rfl, rfl⟩
  case indexPulse => exact ⟨_, rfl, rfl⟩
  case sample => exact nomatch (show true = false from hc)
  case rebaseNotice => exact nomatch (show true = false from hc)
  case freezeNotice => exact nomatch (show true = false from hc)
  case thawNotice => exact nomatch (show true = false from hc)
  case defineZone => exact claim_keeps hK fun s => by unfold defineZone; (try dsimp only); (repeat' split) <;> rfl
  case modifyZone => exact nomatch (show true = false from hc)
  case deleteZone => exact nomatch (show true = false from hc)
  case readZone => exact claim_keeps hK fun s => by unfold readZone; (try dsimp only); (repeat' split) <;> rfl
  case listZones => exact claim_keeps hK fun s => rfl
  case subscribeZone => exact claim_keeps hK fun s => by unfold subscribeZone; (try dsimp only); (repeat' split) <;> rfl
  case unsubscribeZone => exact claim_keeps hK fun s => by unfold unsubscribeZone; (try dsimp only); (repeat' split) <;> rfl
  case claimOutput => exact nomatch (show true = false from hc)
  case renewLease => exact nomatch (show true = false from hc)
  case releaseOutput => exact nomatch (show true = false from hc)
  case cancelWait => exact nomatch (show true = false from hc)
  case mapOutput => exact nomatch (show true = false from hc)
  case forceOutput => exact nomatch (show true = false from hc)
  case configureOutput => exact nomatch (show true = false from hc)
  case readOutputs => exact claim_keeps hK fun s => rfl
  case leaseTick => exact nomatch (show true = false from hc)
  case leaseExpiry => exact nomatch (show true = false from hc)
  case oholdChange => exact nomatch (show true = false from hc)
  case eventAppend => unfold execEventAppend; (try dsimp only); split <;> exact ⟨_, rfl, rfl⟩
  case fetchEvents => exact claim_keeps hK fun s => by unfold fetchEvents; (try dsimp only); (repeat' split) <;> rfl
  case ackEvents => exact claim_keeps hK fun s => by unfold ackEvents; (try dsimp only); (repeat' split) <;> rfl
  case setAttention => exact claim_keeps hK fun s => rfl
  case triggerEdge => unfold execTriggerEdge; (try dsimp only); split <;> exact ⟨_, rfl, rfl⟩
  case latchSnapshotWrite => unfold execLatchSnapshotWrite; (try dsimp only); split <;> exact ⟨_, rfl, rfl⟩
  case zoneCaptureClaim => unfold execZoneCaptureClaim; (try dsimp only); split <;> exact ⟨_, rfl, rfl⟩
  case configureTrigger => exact claim_keeps hK fun s => by unfold configureTrigger; (try dsimp only); (repeat' split) <;> rfl
  case attachCursor => exact claim_keeps hK fun s => rfl
  case detachCursor => exact claim_keeps hK fun s => by unfold detachCursor; (try dsimp only); (repeat' split) <;> rfl
  case readCaptures => exact claim_keeps hK fun s => by unfold readCaptures; (try dsimp only); (repeat' split) <;> rfl
  case postMessage => exact claim_keeps hK fun s => by unfold postMessage; (try dsimp only); (repeat' split) <;> rfl
  case takeMessage => exact claim_keeps hK fun s => by unfold takeMessage; (try dsimp only); (repeat' split) <;> rfl
  case withdrawMessage => exact claim_keeps hK fun s => by unfold withdrawMessage; (try dsimp only); (repeat' split) <;> rfl
  case supplyReturnToRange =>
    unfold execSupplyReturnToRange; split
    all_goals refine ⟨_, rfl, ?_⟩
    all_goals first | rfl | (unfold State.begin; split <;> rfl)

/-- The commands that can change the trigger inputs. -/
def touchesTriggers : Instr → Bool
  | .rstnAssert | .supplyBelowRange | .triggerEdge .. | .latchSnapshotWrite .. | .configureTrigger ..
  | .teardownStage3 .. => true
  | _ => false

theorem keeps_triggers (c : Instr) (s : State) (hc : touchesTriggers c = false) : ∃ t, exec c s = .next t ∧ t.triggers = s.triggers := by
  have hK : Apart (fun s : State => s.triggers) := ⟨fun _ _ _ => rfl, fun _ _ _ => rfl⟩
  cases c <;> simp only [exec]
  case put => exact ⟨_, rfl, put_keeps hK _ _ _ _ fun b s => take_keeps hK ..⟩
  case get => exact ⟨_, rfl, by unfold readTransaction; (try dsimp only); split <;> rfl⟩
  case peek => exact ⟨_, rfl, by unfold readTransaction; (try dsimp only); split <;> rfl⟩
  case voidTransaction => 
    unfold execVoidTransaction; split
    · exact ⟨_, rfl, rfl⟩
    · split
      · exact ⟨_, rfl, rfl⟩
      · exact ⟨_, rfl, by split <;> rfl⟩
  case identify => exact ⟨_, rfl, put_keeps hK _ _ _ _ fun b s => judge_keeps hK ..⟩
  case openSession => exact ⟨_, rfl, put_keeps hK _ _ _ _ fun b s => judge_keeps hK ..⟩
  case closeSession => exact ⟨_, rfl, put_keeps hK _ _ _ _ fun b s => judge_keeps hK ..⟩
  case teardownStage2 => exact ⟨_, rfl, by split <;> simp⟩
  case teardownStage3 => exact nomatch (show true = false from hc)
  case teardownStage4 => unfold execTeardownStage4; split <;> (try split) <;> exact ⟨_, rfl, by simp⟩
  case teardownStage5 => exact ⟨_, rfl, by split <;> simp⟩
  case teardownStage6 => exact ⟨_, rfl, by split <;> simp⟩
  case prstnAssert => unfold execPrstnAssert; dsimp only; split
                      · exact ⟨_, rfl, rfl⟩
                      · exact ⟨_, rfl, by split <;> first | rfl | exact startTeardown_keeps hK ..⟩
  case prstnRelease => exact ⟨_, rfl, rfl⟩
  case rstnAssert => exact nomatch (show true = false from hc)
  case rstnRelease =>
    unfold execRstnRelease; split
    all_goals refine ⟨_, rfl, ?_⟩
    all_goals first | rfl | (unfold State.begin; split <;> rfl)
  case supplyBelowRange => exact nomatch (show true = false from hc)
  case startupPeriodEnd => unfold execStartupPeriodEnd; split <;> exact ⟨_, rfl, rfl⟩
  case configureAxis => exact claim_keeps hK fun s => by unfold configureAxis; (try dsimp only); (repeat' split) <;> rfl
  case start => exact claim_keeps hK fun s => by unfold startAxis; (try dsimp only); (repeat' split) <;> rfl
  case stop => exact claim_keeps hK fun s => by unfold stopAxis; (try dsimp only); (repeat' split) <;> rfl
  case resume => exact claim_keeps hK fun s => by unfold resumeAxis; (try dsimp only); (repeat' split) <;> rfl
  case setOffset => exact claim_keeps hK fun s => by unfold setOffset; (try dsimp only); (repeat' split) <;> rfl
  case readAxes => exact claim_keeps hK fun s => rfl
  case subscribeAxis => exact claim_keeps hK fun s => rfl
  case unsubscribeAxis => exact claim_keeps hK fun s => by unfold unsubscribeAxis; (try dsimp only); (repeat' split) <;> rfl
  case align => exact claim_keeps hK fun s => by unfold alignAxis; (try dsimp only); (repeat' split) <;> rfl
  case cancelAlign => exact claim_keeps hK fun s => by unfold cancelAlign; (try dsimp only); (repeat' split) <;> rfl
  case encoderStep => exact ⟨_, rfl, rfl⟩
  case skippedState => exact ⟨_, rfl, rfl⟩
  case lineFaultRise => unfold execLineFaultRise; (try dsimp only); split <;> exact ⟨_, rfl, rfl⟩
  case lineFaultFall => exact ⟨_, rfl, rfl⟩
  case indexPulse => exact ⟨_, rfl, rfl⟩
  case sample => unfold execSample; split <;> exact ⟨_, rfl, rfl⟩
  case rebaseNotice => unfold execRebaseNotice; split <;> exact ⟨_, rfl, rfl⟩
  case freezeNotice => unfold execFreezeNotice; split <;> exact ⟨_, rfl, rfl⟩
  case thawNotice => unfold execThawNotice; split <;> exact ⟨_, rfl, rfl⟩
  case defineZone => exact claim_keeps hK fun s => by unfold defineZone; (try dsimp only); (repeat' split) <;> rfl
  case modifyZone => exact claim_keeps hK fun s => by unfold modifyZone; (try dsimp only); (repeat' split) <;> rfl
  case deleteZone => exact claim_keeps hK fun s => by unfold deleteZone; (try dsimp only); (repeat' split) <;> rfl
  case readZone => exact claim_keeps hK fun s => by unfold readZone; (try dsimp only); (repeat' split) <;> rfl
  case listZones => exact claim_keeps hK fun s => rfl
  case subscribeZone => exact claim_keeps hK fun s => by unfold subscribeZone; (try dsimp only); (repeat' split) <;> rfl
  case unsubscribeZone => exact claim_keeps hK fun s => by unfold unsubscribeZone; (try dsimp only); (repeat' split) <;> rfl
  case claimOutput => exact claim_keeps hK fun s => by unfold claimOutput; (try dsimp only); (repeat' split) <;> rfl
  case renewLease => exact claim_keeps hK fun s => by unfold renewLease; (try dsimp only); (repeat' split) <;> rfl
  case releaseOutput => exact claim_keeps hK fun s => by unfold releaseOutput; (try dsimp only); (repeat' split) <;> rfl
  case cancelWait => exact claim_keeps hK fun s => by unfold cancelWait; (try dsimp only); (repeat' split) <;> rfl
  case mapOutput => exact claim_keeps hK fun s => by unfold mapOutput; (try dsimp only); (repeat' split) <;> rfl
  case forceOutput => exact claim_keeps hK fun s => by unfold forceOutput; (try dsimp only); (repeat' split) <;> rfl
  case configureOutput => exact claim_keeps hK fun s => by unfold configureOutput; (try dsimp only); (repeat' split) <;> rfl
  case readOutputs => exact claim_keeps hK fun s => rfl
  case leaseTick => exact ⟨_, rfl, by split <;> rfl⟩
  case leaseExpiry =>
    unfold execLeaseExpiry; split
    · refine ⟨_, rfl, ?_⟩; unfold takeExpiry; (try dsimp only); (repeat' split) <;> rfl
    · exact ⟨_, rfl, rfl⟩
  case oholdChange => exact ⟨_, rfl, rfl⟩
  case eventAppend => unfold execEventAppend; (try dsimp only); split <;> exact ⟨_, rfl, rfl⟩
  case fetchEvents => exact claim_keeps hK fun s => by unfold fetchEvents; (try dsimp only); (repeat' split) <;> rfl
  case ackEvents => exact claim_keeps hK fun s => by unfold ackEvents; (try dsimp only); (repeat' split) <;> rfl
  case setAttention => exact claim_keeps hK fun s => rfl
  case triggerEdge => exact nomatch (show true = false from hc)
  case latchSnapshotWrite => exact nomatch (show true = false from hc)
  case zoneCaptureClaim => unfold execZoneCaptureClaim; (try dsimp only); split <;> exact ⟨_, rfl, rfl⟩
  case configureTrigger => exact nomatch (show true = false from hc)
  case attachCursor => exact claim_keeps hK fun s => rfl
  case detachCursor => exact claim_keeps hK fun s => by unfold detachCursor; (try dsimp only); (repeat' split) <;> rfl
  case readCaptures => exact claim_keeps hK fun s => by unfold readCaptures; (try dsimp only); (repeat' split) <;> rfl
  case postMessage => exact claim_keeps hK fun s => by unfold postMessage; (try dsimp only); (repeat' split) <;> rfl
  case takeMessage => exact claim_keeps hK fun s => by unfold takeMessage; (try dsimp only); (repeat' split) <;> rfl
  case withdrawMessage => exact claim_keeps hK fun s => by unfold withdrawMessage; (try dsimp only); (repeat' split) <;> rfl
  case supplyReturnToRange =>
    unfold execSupplyReturnToRange; split
    all_goals refine ⟨_, rfl, ?_⟩
    all_goals first | rfl | (unfold State.begin; split <;> rfl)

/-- The commands that can change the capture unit. -/
def touchesCapture : Instr → Bool
  | .rstnAssert | .supplyBelowRange | .sample .. | .latchSnapshotWrite .. | .zoneCaptureClaim | .attachCursor ..
  | .detachCursor .. | .readCaptures .. | .teardownStage3 .. => true
  | _ => false

theorem keeps_capture (c : Instr) (s : State) (hc : touchesCapture c = false) : ∃ t, exec c s = .next t ∧ t.capture = s.capture := by
  have hK : Apart (fun s : State => s.capture) := ⟨fun _ _ _ => rfl, fun _ _ _ => rfl⟩
  cases c <;> simp only [exec]
  case put => exact ⟨_, rfl, put_keeps hK _ _ _ _ fun b s => take_keeps hK ..⟩
  case get => exact ⟨_, rfl, by unfold readTransaction; (try dsimp only); split <;> rfl⟩
  case peek => exact ⟨_, rfl, by unfold readTransaction; (try dsimp only); split <;> rfl⟩
  case voidTransaction => 
    unfold execVoidTransaction; split
    · exact ⟨_, rfl, rfl⟩
    · split
      · exact ⟨_, rfl, rfl⟩
      · exact ⟨_, rfl, by split <;> rfl⟩
  case identify => exact ⟨_, rfl, put_keeps hK _ _ _ _ fun b s => judge_keeps hK ..⟩
  case openSession => exact ⟨_, rfl, put_keeps hK _ _ _ _ fun b s => judge_keeps hK ..⟩
  case closeSession => exact ⟨_, rfl, put_keeps hK _ _ _ _ fun b s => judge_keeps hK ..⟩
  case teardownStage2 => exact ⟨_, rfl, by split <;> simp⟩
  case teardownStage3 => exact nomatch (show true = false from hc)
  case teardownStage4 => unfold execTeardownStage4; split <;> (try split) <;> exact ⟨_, rfl, by simp⟩
  case teardownStage5 => exact ⟨_, rfl, by split <;> simp⟩
  case teardownStage6 => exact ⟨_, rfl, by split <;> simp⟩
  case prstnAssert => unfold execPrstnAssert; dsimp only; split
                      · exact ⟨_, rfl, rfl⟩
                      · exact ⟨_, rfl, by split <;> first | rfl | exact startTeardown_keeps hK ..⟩
  case prstnRelease => exact ⟨_, rfl, rfl⟩
  case rstnAssert => exact nomatch (show true = false from hc)
  case rstnRelease =>
    unfold execRstnRelease; split
    all_goals refine ⟨_, rfl, ?_⟩
    all_goals first | rfl | (unfold State.begin; split <;> rfl)
  case supplyBelowRange => exact nomatch (show true = false from hc)
  case startupPeriodEnd => unfold execStartupPeriodEnd; split <;> exact ⟨_, rfl, rfl⟩
  case configureAxis => exact claim_keeps hK fun s => by unfold configureAxis; (try dsimp only); (repeat' split) <;> rfl
  case start => exact claim_keeps hK fun s => by unfold startAxis; (try dsimp only); (repeat' split) <;> rfl
  case stop => exact claim_keeps hK fun s => by unfold stopAxis; (try dsimp only); (repeat' split) <;> rfl
  case resume => exact claim_keeps hK fun s => by unfold resumeAxis; (try dsimp only); (repeat' split) <;> rfl
  case setOffset => exact claim_keeps hK fun s => by unfold setOffset; (try dsimp only); (repeat' split) <;> rfl
  case readAxes => exact claim_keeps hK fun s => rfl
  case subscribeAxis => exact claim_keeps hK fun s => rfl
  case unsubscribeAxis => exact claim_keeps hK fun s => by unfold unsubscribeAxis; (try dsimp only); (repeat' split) <;> rfl
  case align => exact claim_keeps hK fun s => by unfold alignAxis; (try dsimp only); (repeat' split) <;> rfl
  case cancelAlign => exact claim_keeps hK fun s => by unfold cancelAlign; (try dsimp only); (repeat' split) <;> rfl
  case encoderStep => exact ⟨_, rfl, rfl⟩
  case skippedState => exact ⟨_, rfl, rfl⟩
  case lineFaultRise => unfold execLineFaultRise; (try dsimp only); split <;> exact ⟨_, rfl, rfl⟩
  case lineFaultFall => exact ⟨_, rfl, rfl⟩
  case indexPulse => exact ⟨_, rfl, rfl⟩
  case sample => exact nomatch (show true = false from hc)
  case rebaseNotice => unfold execRebaseNotice; split <;> exact ⟨_, rfl, rfl⟩
  case freezeNotice => unfold execFreezeNotice; split <;> exact ⟨_, rfl, rfl⟩
  case thawNotice => unfold execThawNotice; split <;> exact ⟨_, rfl, rfl⟩
  case defineZone => exact claim_keeps hK fun s => by unfold defineZone; (try dsimp only); (repeat' split) <;> rfl
  case modifyZone => exact claim_keeps hK fun s => by unfold modifyZone; (try dsimp only); (repeat' split) <;> rfl
  case deleteZone => exact claim_keeps hK fun s => by unfold deleteZone; (try dsimp only); (repeat' split) <;> rfl
  case readZone => exact claim_keeps hK fun s => by unfold readZone; (try dsimp only); (repeat' split) <;> rfl
  case listZones => exact claim_keeps hK fun s => rfl
  case subscribeZone => exact claim_keeps hK fun s => by unfold subscribeZone; (try dsimp only); (repeat' split) <;> rfl
  case unsubscribeZone => exact claim_keeps hK fun s => by unfold unsubscribeZone; (try dsimp only); (repeat' split) <;> rfl
  case claimOutput => exact claim_keeps hK fun s => by unfold claimOutput; (try dsimp only); (repeat' split) <;> rfl
  case renewLease => exact claim_keeps hK fun s => by unfold renewLease; (try dsimp only); (repeat' split) <;> rfl
  case releaseOutput => exact claim_keeps hK fun s => by unfold releaseOutput; (try dsimp only); (repeat' split) <;> rfl
  case cancelWait => exact claim_keeps hK fun s => by unfold cancelWait; (try dsimp only); (repeat' split) <;> rfl
  case mapOutput => exact claim_keeps hK fun s => by unfold mapOutput; (try dsimp only); (repeat' split) <;> rfl
  case forceOutput => exact claim_keeps hK fun s => by unfold forceOutput; (try dsimp only); (repeat' split) <;> rfl
  case configureOutput => exact claim_keeps hK fun s => by unfold configureOutput; (try dsimp only); (repeat' split) <;> rfl
  case readOutputs => exact claim_keeps hK fun s => rfl
  case leaseTick => exact ⟨_, rfl, by split <;> rfl⟩
  case leaseExpiry =>
    unfold execLeaseExpiry; split
    · refine ⟨_, rfl, ?_⟩; unfold takeExpiry; (try dsimp only); (repeat' split) <;> rfl
    · exact ⟨_, rfl, rfl⟩
  case oholdChange => exact ⟨_, rfl, rfl⟩
  case eventAppend => unfold execEventAppend; (try dsimp only); split <;> exact ⟨_, rfl, rfl⟩
  case fetchEvents => exact claim_keeps hK fun s => by unfold fetchEvents; (try dsimp only); (repeat' split) <;> rfl
  case ackEvents => exact claim_keeps hK fun s => by unfold ackEvents; (try dsimp only); (repeat' split) <;> rfl
  case setAttention => exact claim_keeps hK fun s => rfl
  case triggerEdge => unfold execTriggerEdge; (try dsimp only); split <;> exact ⟨_, rfl, rfl⟩
  case latchSnapshotWrite => exact nomatch (show true = false from hc)
  case zoneCaptureClaim => exact nomatch (show true = false from hc)
  case configureTrigger => exact claim_keeps hK fun s => by unfold configureTrigger; (try dsimp only); (repeat' split) <;> rfl
  case attachCursor => exact nomatch (show true = false from hc)
  case detachCursor => exact nomatch (show true = false from hc)
  case readCaptures => exact nomatch (show true = false from hc)
  case postMessage => exact claim_keeps hK fun s => by unfold postMessage; (try dsimp only); (repeat' split) <;> rfl
  case takeMessage => exact claim_keeps hK fun s => by unfold takeMessage; (try dsimp only); (repeat' split) <;> rfl
  case withdrawMessage => exact claim_keeps hK fun s => by unfold withdrawMessage; (try dsimp only); (repeat' split) <;> rfl
  case supplyReturnToRange =>
    unfold execSupplyReturnToRange; split
    all_goals refine ⟨_, rfl, ?_⟩
    all_goals first | rfl | (unfold State.begin; split <;> rfl)

/-- The commands that can change the message pool. -/
def touchesPool : Instr → Bool
  | .rstnAssert | .supplyBelowRange | .postMessage .. | .takeMessage .. | .withdrawMessage .. | .teardownStage2 .. => true
  | _ => false

theorem keeps_pool (c : Instr) (s : State) (hc : touchesPool c = false) : ∃ t, exec c s = .next t ∧ t.pool = s.pool := by
  have hK : Apart (fun s : State => s.pool) := ⟨fun _ _ _ => rfl, fun _ _ _ => rfl⟩
  cases c <;> simp only [exec]
  case put => exact ⟨_, rfl, put_keeps hK _ _ _ _ fun b s => take_keeps hK ..⟩
  case get => exact ⟨_, rfl, by unfold readTransaction; (try dsimp only); split <;> rfl⟩
  case peek => exact ⟨_, rfl, by unfold readTransaction; (try dsimp only); split <;> rfl⟩
  case voidTransaction => 
    unfold execVoidTransaction; split
    · exact ⟨_, rfl, rfl⟩
    · split
      · exact ⟨_, rfl, rfl⟩
      · exact ⟨_, rfl, by split <;> rfl⟩
  case identify => exact ⟨_, rfl, put_keeps hK _ _ _ _ fun b s => judge_keeps hK ..⟩
  case openSession => exact ⟨_, rfl, put_keeps hK _ _ _ _ fun b s => judge_keeps hK ..⟩
  case closeSession => exact ⟨_, rfl, put_keeps hK _ _ _ _ fun b s => judge_keeps hK ..⟩
  case teardownStage2 => exact nomatch (show true = false from hc)
  case teardownStage3 => exact ⟨_, rfl, by split <;> simp⟩
  case teardownStage4 => unfold execTeardownStage4; split <;> (try split) <;> exact ⟨_, rfl, by simp⟩
  case teardownStage5 => exact ⟨_, rfl, by split <;> simp⟩
  case teardownStage6 => exact ⟨_, rfl, by split <;> simp⟩
  case prstnAssert => unfold execPrstnAssert; dsimp only; split
                      · exact ⟨_, rfl, rfl⟩
                      · exact ⟨_, rfl, by split <;> first | rfl | exact startTeardown_keeps hK ..⟩
  case prstnRelease => exact ⟨_, rfl, rfl⟩
  case rstnAssert => exact nomatch (show true = false from hc)
  case rstnRelease =>
    unfold execRstnRelease; split
    all_goals refine ⟨_, rfl, ?_⟩
    all_goals first | rfl | (unfold State.begin; split <;> rfl)
  case supplyBelowRange => exact nomatch (show true = false from hc)
  case startupPeriodEnd => unfold execStartupPeriodEnd; split <;> exact ⟨_, rfl, rfl⟩
  case configureAxis => exact claim_keeps hK fun s => by unfold configureAxis; (try dsimp only); (repeat' split) <;> rfl
  case start => exact claim_keeps hK fun s => by unfold startAxis; (try dsimp only); (repeat' split) <;> rfl
  case stop => exact claim_keeps hK fun s => by unfold stopAxis; (try dsimp only); (repeat' split) <;> rfl
  case resume => exact claim_keeps hK fun s => by unfold resumeAxis; (try dsimp only); (repeat' split) <;> rfl
  case setOffset => exact claim_keeps hK fun s => by unfold setOffset; (try dsimp only); (repeat' split) <;> rfl
  case readAxes => exact claim_keeps hK fun s => rfl
  case subscribeAxis => exact claim_keeps hK fun s => rfl
  case unsubscribeAxis => exact claim_keeps hK fun s => by unfold unsubscribeAxis; (try dsimp only); (repeat' split) <;> rfl
  case align => exact claim_keeps hK fun s => by unfold alignAxis; (try dsimp only); (repeat' split) <;> rfl
  case cancelAlign => exact claim_keeps hK fun s => by unfold cancelAlign; (try dsimp only); (repeat' split) <;> rfl
  case encoderStep => exact ⟨_, rfl, rfl⟩
  case skippedState => exact ⟨_, rfl, rfl⟩
  case lineFaultRise => unfold execLineFaultRise; (try dsimp only); split <;> exact ⟨_, rfl, rfl⟩
  case lineFaultFall => exact ⟨_, rfl, rfl⟩
  case indexPulse => exact ⟨_, rfl, rfl⟩
  case sample => unfold execSample; split <;> exact ⟨_, rfl, rfl⟩
  case rebaseNotice => unfold execRebaseNotice; split <;> exact ⟨_, rfl, rfl⟩
  case freezeNotice => unfold execFreezeNotice; split <;> exact ⟨_, rfl, rfl⟩
  case thawNotice => unfold execThawNotice; split <;> exact ⟨_, rfl, rfl⟩
  case defineZone => exact claim_keeps hK fun s => by unfold defineZone; (try dsimp only); (repeat' split) <;> rfl
  case modifyZone => exact claim_keeps hK fun s => by unfold modifyZone; (try dsimp only); (repeat' split) <;> rfl
  case deleteZone => exact claim_keeps hK fun s => by unfold deleteZone; (try dsimp only); (repeat' split) <;> rfl
  case readZone => exact claim_keeps hK fun s => by unfold readZone; (try dsimp only); (repeat' split) <;> rfl
  case listZones => exact claim_keeps hK fun s => rfl
  case subscribeZone => exact claim_keeps hK fun s => by unfold subscribeZone; (try dsimp only); (repeat' split) <;> rfl
  case unsubscribeZone => exact claim_keeps hK fun s => by unfold unsubscribeZone; (try dsimp only); (repeat' split) <;> rfl
  case claimOutput => exact claim_keeps hK fun s => by unfold claimOutput; (try dsimp only); (repeat' split) <;> rfl
  case renewLease => exact claim_keeps hK fun s => by unfold renewLease; (try dsimp only); (repeat' split) <;> rfl
  case releaseOutput => exact claim_keeps hK fun s => by unfold releaseOutput; (try dsimp only); (repeat' split) <;> rfl
  case cancelWait => exact claim_keeps hK fun s => by unfold cancelWait; (try dsimp only); (repeat' split) <;> rfl
  case mapOutput => exact claim_keeps hK fun s => by unfold mapOutput; (try dsimp only); (repeat' split) <;> rfl
  case forceOutput => exact claim_keeps hK fun s => by unfold forceOutput; (try dsimp only); (repeat' split) <;> rfl
  case configureOutput => exact claim_keeps hK fun s => by unfold configureOutput; (try dsimp only); (repeat' split) <;> rfl
  case readOutputs => exact claim_keeps hK fun s => rfl
  case leaseTick => exact ⟨_, rfl, by split <;> rfl⟩
  case leaseExpiry =>
    unfold execLeaseExpiry; split
    · refine ⟨_, rfl, ?_⟩; unfold takeExpiry; (try dsimp only); (repeat' split) <;> rfl
    · exact ⟨_, rfl, rfl⟩
  case oholdChange => exact ⟨_, rfl, rfl⟩
  case eventAppend => unfold execEventAppend; (try dsimp only); split <;> exact ⟨_, rfl, rfl⟩
  case fetchEvents => exact claim_keeps hK fun s => by unfold fetchEvents; (try dsimp only); (repeat' split) <;> rfl
  case ackEvents => exact claim_keeps hK fun s => by unfold ackEvents; (try dsimp only); (repeat' split) <;> rfl
  case setAttention => exact claim_keeps hK fun s => rfl
  case triggerEdge => unfold execTriggerEdge; (try dsimp only); split <;> exact ⟨_, rfl, rfl⟩
  case latchSnapshotWrite => unfold execLatchSnapshotWrite; (try dsimp only); split <;> exact ⟨_, rfl, rfl⟩
  case zoneCaptureClaim => unfold execZoneCaptureClaim; (try dsimp only); split <;> exact ⟨_, rfl, rfl⟩
  case configureTrigger => exact claim_keeps hK fun s => by unfold configureTrigger; (try dsimp only); (repeat' split) <;> rfl
  case attachCursor => exact claim_keeps hK fun s => rfl
  case detachCursor => exact claim_keeps hK fun s => by unfold detachCursor; (try dsimp only); (repeat' split) <;> rfl
  case readCaptures => exact claim_keeps hK fun s => by unfold readCaptures; (try dsimp only); (repeat' split) <;> rfl
  case postMessage => exact nomatch (show true = false from hc)
  case takeMessage => exact nomatch (show true = false from hc)
  case withdrawMessage => exact nomatch (show true = false from hc)
  case supplyReturnToRange =>
    unfold execSupplyReturnToRange; split
    all_goals refine ⟨_, rfl, ?_⟩
    all_goals first | rfl | (unfold State.begin; split <;> rfl)

/-- The commands that are a port unit's own: transactions, PRSTn, the stages of a teardown, part reset. -/
def touchesPorts : Instr → Bool
  | .put .. | .get .. | .peek .. | .voidTransaction .. | .identify .. | .openSession .. | .closeSession ..
  | .prstnAssert .. | .prstnRelease .. | .teardownStage2 .. | .teardownStage3 .. | .teardownStage4 ..
  | .teardownStage5 .. | .teardownStage6 .. | .rstnAssert | .supplyBelowRange => true
  | _ => false

/-- The port units after a command that is not theirs: as they were, or one request of one port answered. -/
def PortsAfter (s t : State) : Prop :=
  t.ports = s.ports ∨ ∃ p r aw rest a, s.Flying p r aw rest ∧ t.ports = s.answeredPorts p aw rest a

theorem claim_ports {p : Port} {r : Request} {work : State → State × Answer} {s : State}
    (hw : ∀ t, (work t).1.ports = t.ports) : ∃ t, claim p r work s = .next t ∧ PortsAfter s t := by
  rcases claim_cases p r work s with h | ⟨aw, rest, hf, _⟩
  · exact ⟨_, h, .inl rfl⟩
  · exact ⟨_, claim_next hf work (hw _), .inr ⟨p, r, aw, rest, _, hf, rfl⟩⟩

theorem ports_after (c : Instr) (s : State) (hc : touchesPorts c = false) :
    ∃ t, exec c s = .next t ∧ PortsAfter s t := by
  cases c <;> simp only [exec]
  case put => exact nomatch (show true = false from hc)
  case get => exact nomatch (show true = false from hc)
  case peek => exact nomatch (show true = false from hc)
  case voidTransaction => exact nomatch (show true = false from hc)
  case identify => exact nomatch (show true = false from hc)
  case openSession => exact nomatch (show true = false from hc)
  case closeSession => exact nomatch (show true = false from hc)
  case teardownStage2 => exact nomatch (show true = false from hc)
  case teardownStage3 => exact nomatch (show true = false from hc)
  case teardownStage4 => exact nomatch (show true = false from hc)
  case teardownStage5 => exact nomatch (show true = false from hc)
  case teardownStage6 => exact nomatch (show true = false from hc)
  case prstnAssert => exact nomatch (show true = false from hc)
  case prstnRelease => exact nomatch (show true = false from hc)
  case rstnAssert => exact nomatch (show true = false from hc)
  case rstnRelease =>
    unfold execRstnRelease; split
    all_goals refine ⟨_, rfl, .inl ?_⟩
    all_goals first | rfl | (unfold State.begin; split <;> rfl)
  case supplyBelowRange => exact nomatch (show true = false from hc)
  case startupPeriodEnd => unfold execStartupPeriodEnd; split <;> exact ⟨_, rfl, .inl rfl⟩
  case configureAxis => exact claim_ports fun s => by unfold configureAxis; (try dsimp only); (repeat' split) <;> rfl
  case start => exact claim_ports fun s => by unfold startAxis; (try dsimp only); (repeat' split) <;> rfl
  case stop => exact claim_ports fun s => by unfold stopAxis; (try dsimp only); (repeat' split) <;> rfl
  case resume => exact claim_ports fun s => by unfold resumeAxis; (try dsimp only); (repeat' split) <;> rfl
  case setOffset => exact claim_ports fun s => by unfold setOffset; (try dsimp only); (repeat' split) <;> rfl
  case readAxes => exact claim_ports fun s => rfl
  case subscribeAxis => exact claim_ports fun s => rfl
  case unsubscribeAxis => exact claim_ports fun s => by unfold unsubscribeAxis; (try dsimp only); (repeat' split) <;> rfl
  case align => exact claim_ports fun s => by unfold alignAxis; (try dsimp only); (repeat' split) <;> rfl
  case cancelAlign => exact claim_ports fun s => by unfold cancelAlign; (try dsimp only); (repeat' split) <;> rfl
  case encoderStep => exact ⟨_, rfl, .inl rfl⟩
  case skippedState => exact ⟨_, rfl, .inl rfl⟩
  case lineFaultRise => unfold execLineFaultRise; (try dsimp only); split <;> exact ⟨_, rfl, .inl rfl⟩
  case lineFaultFall => exact ⟨_, rfl, .inl rfl⟩
  case indexPulse => exact ⟨_, rfl, .inl rfl⟩
  case sample => unfold execSample; split <;> exact ⟨_, rfl, .inl rfl⟩
  case rebaseNotice => unfold execRebaseNotice; split <;> exact ⟨_, rfl, .inl rfl⟩
  case freezeNotice => unfold execFreezeNotice; split <;> exact ⟨_, rfl, .inl rfl⟩
  case thawNotice => unfold execThawNotice; split <;> exact ⟨_, rfl, .inl rfl⟩
  case defineZone => exact claim_ports fun s => by unfold defineZone; (try dsimp only); (repeat' split) <;> rfl
  case modifyZone => exact claim_ports fun s => by unfold modifyZone; (try dsimp only); (repeat' split) <;> rfl
  case deleteZone => exact claim_ports fun s => by unfold deleteZone; (try dsimp only); (repeat' split) <;> rfl
  case readZone => exact claim_ports fun s => by unfold readZone; (try dsimp only); (repeat' split) <;> rfl
  case listZones => exact claim_ports fun s => rfl
  case subscribeZone => exact claim_ports fun s => by unfold subscribeZone; (try dsimp only); (repeat' split) <;> rfl
  case unsubscribeZone => exact claim_ports fun s => by unfold unsubscribeZone; (try dsimp only); (repeat' split) <;> rfl
  case claimOutput => exact claim_ports fun s => by unfold claimOutput; (try dsimp only); (repeat' split) <;> rfl
  case renewLease => exact claim_ports fun s => by unfold renewLease; (try dsimp only); (repeat' split) <;> rfl
  case releaseOutput => exact claim_ports fun s => by unfold releaseOutput; (try dsimp only); (repeat' split) <;> rfl
  case cancelWait => exact claim_ports fun s => by unfold cancelWait; (try dsimp only); (repeat' split) <;> rfl
  case mapOutput => exact claim_ports fun s => by unfold mapOutput; (try dsimp only); (repeat' split) <;> rfl
  case forceOutput => exact claim_ports fun s => by unfold forceOutput; (try dsimp only); (repeat' split) <;> rfl
  case configureOutput => exact claim_ports fun s => by unfold configureOutput; (try dsimp only); (repeat' split) <;> rfl
  case readOutputs => exact claim_ports fun s => rfl
  case leaseTick => exact ⟨_, rfl, .inl (by split <;> rfl)⟩
  case leaseExpiry =>
    unfold execLeaseExpiry; split
    · refine ⟨_, rfl, .inl ?_⟩; unfold takeExpiry; (try dsimp only); (repeat' split) <;> rfl
    · exact ⟨_, rfl, .inl rfl⟩
  case oholdChange => exact ⟨_, rfl, .inl rfl⟩
  case eventAppend => unfold execEventAppend; (try dsimp only); split <;> exact ⟨_, rfl, .inl rfl⟩
  case fetchEvents => exact claim_ports fun s => by unfold fetchEvents; (try dsimp only); (repeat' split) <;> rfl
  case ackEvents => exact claim_ports fun s => by unfold ackEvents; (try dsimp only); (repeat' split) <;> rfl
  case setAttention => exact claim_ports fun s => rfl
  case triggerEdge => unfold execTriggerEdge; (try dsimp only); split <;> exact ⟨_, rfl, .inl rfl⟩
  case latchSnapshotWrite => unfold execLatchSnapshotWrite; (try dsimp only); split <;> exact ⟨_, rfl, .inl rfl⟩
  case zoneCaptureClaim => unfold execZoneCaptureClaim; (try dsimp only); split <;> exact ⟨_, rfl, .inl rfl⟩
  case configureTrigger => exact claim_ports fun s => by unfold configureTrigger; (try dsimp only); (repeat' split) <;> rfl
  case attachCursor => exact claim_ports fun s => rfl
  case detachCursor => exact claim_ports fun s => by unfold detachCursor; (try dsimp only); (repeat' split) <;> rfl
  case readCaptures => exact claim_ports fun s => by unfold readCaptures; (try dsimp only); (repeat' split) <;> rfl
  case postMessage => exact claim_ports fun s => by unfold postMessage; (try dsimp only); (repeat' split) <;> rfl
  case takeMessage => exact claim_ports fun s => by unfold takeMessage; (try dsimp only); (repeat' split) <;> rfl
  case withdrawMessage => exact claim_ports fun s => by unfold withdrawMessage; (try dsimp only); (repeat' split) <;> rfl
  case supplyReturnToRange =>
    unfold execSupplyReturnToRange; split
    all_goals refine ⟨_, rfl, .inl ?_⟩
    all_goals first | rfl | (unfold State.begin; split <;> rfl)

end Sys2Proof.Machine
end

