-- ==== Sys2Proof/Tests/Slice0.lean ====
section
/-!
SUPPORT. The model's own tests: the checks of well-formedness refuse what they should, the numbers of the data sheet's
worked sequences come out one step at a time, and every obligation that has hypotheses has a state and operands that meet
them (each clause of its own, at a boundary where the clause has a range).
-/

namespace Sys2Proof.Tests

open Machine

set_option Elab.async false

/-! ### Small states -/

/-- The part at the end of its start-up period. -/
abbrev ready : State := { State.reset with timebase := 3000, starting := false }

/-- A port with an OPEN session of this number. -/
abbrev openAt (p : Port) (number : Byte) (s : State) : State :=
  { s with
    ports := s.ports.put p { s.ports.get p with session := .opened, number := number }
    queues := s.queues.put p { s.queues.get p with isOpen := true, attention := true } }

/-- Every port with an OPEN session of number 1. -/
abbrev opened : State := openAt 0 1 (openAt 1 1 (openAt 2 1 (openAt 3 1 ready)))

/-- A port whose session is CLOSING, before the given stage. -/
abbrev closingAt (p : Port) (st : Stage) (s : State) : State :=
  { s with ports := s.ports.put p { s.ports.get p with session := .closing st } }

/-- A port whose slot holds a response. -/
abbrev holding (p : Port) (s : State) : State :=
  { s with ports := s.ports.put p { s.ports.get p with slot := .answerReady ⟨0x15, 9, .ok, false, []⟩ } }

/-- A request of a port on its way to its owner. -/
abbrev flying (p : Port) (r : Request) (s : State) : State :=
  { s with ports := s.ports.put p { s.ports.get p with slot := .working r.code 7 false, inFlight := [⟨r, true⟩] } }

/-- The state after a command; the reset state if it stopped. -/
abbrev after (c : Instr) (s : State) : State :=
  match exec c s with
  | .next t => t
  | _ => State.reset

/-- The answer in the slot of a port: the result and the payload. -/
abbrev answer (p : Port) (s : State) : Option (ResultCode × List Byte) :=
  match (s.ports.get p).slot with
  | .answerReady r => some (r.result, r.payload)
  | _ => none

/-- A request taken by its owner. -/
abbrev served (p : Port) (r : Request) (s : State) : State := after (r.command p) (flying p r s)

/-- The records on their way to a port's queue. -/
abbrev news (p : Port) (s : State) : List Event := (s.queues.get p).arriving.map fun a => a.2

/-- A state with one axis unit replaced. -/
abbrev withAxis (ax : Axis) (u : AxisUnit) (s : State) : State := { s with axes := s.axes.put ax u }

/-! ### Well-formedness -/

theorem test_wellFormed_refuses_configureAxis :
    (Instr.configureAxis 0 0 4 .normal (-2147483649) 0 0 0).wellFormed = false ∧
    (Instr.configureAxis 0 0 4 .normal 0 2147483648 0 0).wellFormed = false ∧
    (Request.configureAxis 0 4 .normal (-2147483649) 0 0 0).wellFormed = false ∧
    (Request.configureAxis 0 4 .normal 0 2147483648 0 0).wellFormed = false := by decide

theorem test_wellFormed_refuses_setOffset :
    (Instr.setOffset 0 0 2147483648).wellFormed = false ∧ (Request.setOffset 0 (-2147483649)).wellFormed = false := by
  decide

theorem test_wellFormed_refuses_align :
    (Instr.align 0 0 2147483648 .none .any).wellFormed = false ∧
    (Request.align 0 (-2147483649) .none .any).wellFormed = false := by decide

theorem test_wellFormed_refuses_defineZone :
    (Instr.defineZone 0 0 (-2147483649) 0 0 .none none).wellFormed = false ∧
    (Instr.defineZone 0 0 0 2147483648 0 .none none).wellFormed = false ∧
    (Request.defineZone 0 (-2147483649) 0 0 .none none).wellFormed = false ∧
    (Request.defineZone 0 0 2147483648 0 .none none).wellFormed = false := by decide

theorem test_wellFormed_refuses_modifyZone :
    (Instr.modifyZone 0 0 1 (-2147483649) 0 0 .none).wellFormed = false ∧
    (Instr.modifyZone 0 0 1 0 2147483648 0 .none).wellFormed = false ∧
    (Request.modifyZone 0 1 (-2147483649) 0 0 .none).wellFormed = false ∧
    (Request.modifyZone 0 1 0 2147483648 0 .none).wellFormed = false := by decide

theorem test_wellFormed_refuses_postMessage :
    (Instr.postMessage 0 1 true (List.replicate 57 0)).wellFormed = false ∧
    (Request.postMessage 1 true (List.replicate 57 0)).wellFormed = false ∧
    (Request.postMessage 1 true (List.replicate 56 0)).wellFormed = true := by decide

theorem test_wellFormed_refuses_voidTransaction :
    (Instr.voidTransaction 0 [0xA5]).wellFormed = false ∧ (Instr.voidTransaction 0 [0x5A]).wellFormed = false ∧
    (Instr.voidTransaction 0 [0x3C]).wellFormed = false ∧ (Instr.voidTransaction 0 [0xA6]).wellFormed = true := by decide

/-! ### Frames (09) -/

/-- R163, the data sheet's example: the register runs 0xD1, 0xAB, 0xB6, 0xDC. -/
theorem test_checkByte_of_the_example :
    crc8 [0x05] = 0xD1 ∧ crc8 [0x05, 0x01] = 0xAB ∧ crc8 [0x05, 0x01, 0x00] = 0xB6 ∧
    requestFrame 0x01 0 0 [] = [0x05, 0x01, 0x00, 0x00, 0xDC] := by decide +kernel

/-- R167: the offset of the first wrong field, 0xFF for the length. -/
theorem test_badPayload_offsets :
    ((requestRow 0x10).map fun r => r.parse (List.replicate 2 0 ++ [7] ++ List.replicate 12 0)) = some (.error 2) ∧
    ((requestRow 0x10).map fun r => r.parse (List.replicate 14 0 ++ [16])) = some (.error 14) ∧
    ((requestRow 0x11).map fun r => r.parse [4]) = some (.error 0) ∧
    ((requestRow 0x11).map fun r => r.parse []) = some (.error 0xFF) ∧
    ((requestRow 0x50).map fun r => r.parse [0, 0, 16]) = some (.error 2) ∧
    ((requestRow 0x60).map fun r => r.parse [4, 2, 0]) = some (.error 0) ∧
    ((requestRow 0x60).map fun r => r.parse [3, 2, 0]) = some (.error 1) ∧
    ((requestRow 0x60).map fun r => r.parse [3, 1, 1]) = some (.error 0xFF) := by decide +kernel

/-- R167: a code that no table of R164 lists is refused, at the enumerations that have a NONE as at the others. -/
theorem test_badPayload_codes :
    ((requestRow 0x18).map fun r => r.parse [0, 0, 0, 0, 0, 9, 0]) = some (.error 5) ∧
    ((requestRow 0x20).map fun r => r.parse (List.replicate 11 0 ++ [4, 0])) = some (.error 11) ∧
    ((requestRow 0x21).map fun r => r.parse (List.replicate 13 0 ++ [4])) = some (.error 13) ∧
    ((requestRow 0x35).map fun r => r.parse [0, 3]) = some (.error 1) := by decide +kernel

/-- R168: the bytes of an event record and of a capture record. -/
theorem test_record_layouts :
    (EventRecord.mk 0x0102 ⟨.axisState, some .range, some (.axis 1), some (.axis (.lost .range)), 0, 100001, 0x01020304⟩).bytes
      = [2, 1, 8, 10, 1, 0x34, 0, 0, 0xA1, 0x86, 0x01, 0, 4, 3, 2, 1] ∧
    (CaptureRecord.mk 101 7200000 (.trigger 2) .rise none false [⟨0, 52310, .aligned⟩, ⟨1, -80, .live⟩]).bytes
      = [101, 0, 0, 0, 0, 0xDD, 0x6D, 0, 2, 1, 0, 0, 0, 2, 8, 0x56, 0xCC, 0, 0, 5, 0xB0, 0xFF, 0xFF, 0xFF] := by
  decide +kernel

/-! ### The worked sequences, one step at a time -/

/-- 1.7, set-up: travel 0 to 100,000. -/
theorem test_configureAxis_stores_the_record :
    let s := served 2 (.configureAxis 1 4 .normal 0 100000 0 0) opened
    answer 2 s = some (.ok, [1, 4, 0, 0, 0, 0, 0, 0xA0, 0x86, 1, 0, 0, 0, 0, 0]) ∧ (s.axes.get 1).config.high = 100000 ∧
    answer 2 (served 2 (.configureAxis 1 3 .normal 0 100000 0 0) opened) = some (.badArgument, []) := by decide +kernel

/-- Axis 1 of 1.7: IDLE with offset 500, P2 subscribed. -/
abbrev slide (st : AxisState) (count : Int) : State :=
  withAxis 1
    { AxisUnit.reset false .lowLow with
      state := st, count := count, offset := 500, lastStep := some .positive
      config := ⟨.x4, .normal, 0, 100000, 0, 0⟩, subscribers := (Table.all 4 false).put 2 true } opened

theorem test_setOffset_in_idle : answer 2 (served 2 (.setOffset 1 (-2000)) (slide .idle 0)) = some (.ok, [0x30, 0xF8, 0xFF, 0xFF]) ∧
    answer 2 (served 2 (.setOffset 1 (-2000)) (slide .free 0)) = some (.outOfRange, [2]) := by decide +kernel

/-- 1.7, steps 3 and 5: START, and the step out of the window. -/
theorem test_start_goes_to_free :
    let s := served 2 (.start 1) (slide .idle 7)
    (s.axes.get 1).state = .free ∧ (s.axes.get 1).outbox = [.thaw 500 .start] ∧ answer 2 s = some (.ok, [0xF4, 1, 0, 0]) ∧
    news 2 s = [⟨.axisState, some .start, some (.axis 1), some (.axis .free), 0, 500, 3000⟩] ∧ news 3 s = [] := by
  decide +kernel

theorem test_encoderStep_out_of_the_window :
    let s := after (.encoderStep 1 .positive) (slide .free 99500)
    (s.axes.get 1).state = .lost .range ∧ (s.axes.get 1).count = 99501 ∧
    (s.axes.get 1).outbox = [.sample 100001 false, .freeze 100001 (.lost .range)] ∧
    news 2 s = [⟨.axisState, some .range, some (.axis 1), some (.axis (.lost .range)), 0, 100001, 3000⟩] := by decide +kernel

theorem test_encoderStep_in_lost :
    let s := after (.encoderStep 1 .positive) (slide (.lost .range) 99501)
    (s.axes.get 1).count = 99502 ∧ (s.axes.get 1).outbox = [] := by decide +kernel

/-- 1.7, steps 7, 10 and 13: RESUME out of the window, with a line fault, and accepted. -/
theorem test_resume_refused_and_accepted :
    answer 2 (served 2 (.resume 1) (slide (.lost .range) 99800)) = some (.outOfRange, [2]) ∧
    answer 2 (served 2 (.resume 1) (after (.lineFaultRise 1) (slide (.lost .range) 99300))) = some (.lineFault, []) ∧
    (let s := served 2 (.resume 1) (slide (.lost .range) 99000)
     (s.axes.get 1).state = .free ∧ (s.axes.get 1).outbox = [.thaw 99500 .resume]) := by decide +kernel

theorem test_lineFaultRise_and_fall :
    ((after (.lineFaultRise 1) (slide .free 10)).axes.get 1).state = .lost .signal ∧
    ((after (.lineFaultFall 1) (after (.lineFaultRise 1) (slide (.lost .range) 10))).axes.get 1).state = .lost .range := by
  decide +kernel

theorem test_skippedState_loses_the_signal :
    let s := after (.skippedState 1) (slide .aligned 10)
    (s.axes.get 1).state = .lost .signal ∧ (s.axes.get 1).phase = .highHigh ∧ (s.axes.get 1).count = 10 := by decide +kernel

theorem test_stop_goes_to_idle :
    let s := served 2 (.stop 1) (slide (.armed ⟨0, 700, .none, .any⟩) 10)
    (s.axes.get 1).state = .idle ∧ (news 0 s).map Event.kind = [.alignAborted] ∧ (news 2 s).map Event.kind = [.axisState] := by
  decide +kernel

/-- Axis 2 of 2.6. -/
abbrev press (st : AxisState) (count : Int) (last : Option Int) : State :=
  withAxis 2
    { AxisUnit.reset false .lowLow with
      state := st, count := count, offset := 100, lastStep := some .positive, lastIndex := last
      config := ⟨.x4, .normal, -10000, 1000000, 4000, 2⟩
      subscribers := ((Table.all 4 false).put 0 true).put 3 true } opened

/-- 2.6, steps 1 and 2. -/
theorem test_align_arms_and_is_contended :
    answer 0 (served 0 (.align 2 5000 (.trigger 1 true) .positive) (press .free 1250 none)) =
      some (.ok, [2, 0x46, 5, 0, 0, 0x88, 0x13, 0, 0, 2, 1, 0, 0]) ∧
    answer 1 (served 1 (.align 2 0 .none .any) (press (.armed ⟨0, 5000, .none, .any⟩) 1250 none)) =
      some (.axisBusy, [0]) := by decide +kernel

/-- 2.6, steps 3 and 5: a pulse the qualifier rejects, and the one that completes. -/
theorem test_indexPulse_rejected_and_completing :
    (let s := after (.indexPulse 2) (press (.armed ⟨0, 5000, .trigger 1 true, .positive⟩) 2730 none)
     (s.axes.get 2).count = 2730 ∧ (s.axes.get 2).lastIndex = some 2730 ∧ news 0 s = []) ∧
    (let s := after (.indexPulse 2) (press (.armed ⟨0, 5000, .none, .positive⟩) 6730 (some 2730))
     (s.axes.get 2).count = 4900 ∧ (s.axes.get 2).state = .aligned ∧ (s.axes.get 2).lastIndex = some 4900 ∧
     (news 0 s).map Event.kind = [.alignDone, .axisState] ∧ (news 3 s).map Event.value = [5000]) := by decide +kernel

/-- 2.6, steps 6 and 7: d = 4,001 is accepted, d = 4,049 is a mismatch. -/
theorem test_indexPulse_supervised :
    ((after (.indexPulse 2) (press .aligned 8901 (some 4900))).axes.get 2).lastIndex = some 8901 ∧
    (let s := after (.indexPulse 2) (press .aligned 12950 (some 8901))
     (s.axes.get 2).state = .lost .spacing ∧ (s.axes.get 2).lastIndex = some 8901) := by decide +kernel

/-- 2.6, step 10. -/
theorem test_teardownStage4_frees_the_axis :
    let s := after (.teardownStage4 1 2) (closingAt 1 (.four (.all 4 false)) (press (.armed ⟨1, 20000, .none, .any⟩) 12950 none))
    (s.axes.get 2).state = .free ∧ (s.axes.get 2).outbox = [] ∧
    (news 0 s).map Event.cause = [some .teardown] ∧ news 1 s = [] ∧
    (s.ports.get 1).session = .closing (.four ((Table.all 4 false).put 2 true)) := by decide +kernel

theorem test_cancelAlign :
    answer 1 (served 1 (.cancelAlign 2) (press (.armed ⟨0, 5000, .none, .any⟩) 0 none)) = some (.notAligner, []) ∧
    ((served 0 (.cancelAlign 2) (press (.armed ⟨0, 5000, .none, .any⟩) 0 none)).axes.get 2).state = .free := by
  decide +kernel

theorem test_subscribeAxis_and_unsubscribeAxis :
    answer 1 (served 1 (.subscribeAxis 2) (press .free 1250 none)) = some (.ok, [1, 0, 0x46, 5, 0, 0]) ∧
    answer 1 (served 1 (.unsubscribeAxis 2) (press .free 1250 none)) = some (.notSubscribed, []) := by decide +kernel

theorem test_readAxes_reports_84_bytes :
    (answer 1 (served 1 .readAxes (press .free 1250 none))).map (fun a => (a.2.length, (a.2.drop 40).take 6)) =
      some (84, [1, 0, 0x46, 5, 0, 0]) := by decide +kernel

/-- The zones of 3.6 on axis 0: zone 0 with the given membership, zone 1 with the given one, the last evaluated position. -/
abbrev carriage (m0 m1 : Membership) (last : Int) : State :=
  { opened with
    views := opened.views.put 0 ⟨last, .live⟩
    zones :=
      (opened.zones.put 0
        ⟨1, some ⟨0, 1000, 1200, 50, .both, 0, m0, false, ((Table.all 4 none).put 0 (some .all)).put 1 (some .crossings)⟩⟩).put 1
        ⟨1, some ⟨0, 1300, 1320, 30, .enter, 1, m1, false, (Table.all 4 none).put 1 (some .all)⟩⟩ }

/-- The same with a message of axis 0 on its way. -/
abbrev bringing (m : AxisMsg) (s : State) : State := withAxis 0 { s.axes.get 0 with outbox := [m] } s

/-- 3.6, step 3: zone 0 is left, zone 1 is jumped over and entered. -/
theorem test_sample_leaves_and_enters :
    let s := after (.sample 0) (bringing (.sample 1340 false) (carriage .inside .outside 1230))
    (news 0 s).map Event.kind = [.zoneExit] ∧ (news 1 s).map Event.kind = [.zoneExit, .zoneEnter] ∧
    s.capture.waiting.map (fun c => (c.zone, c.event)) = [(0, .exit), (1, .enter)] ∧ (s.views.get 0).last = 1340 := by
  decide +kernel

/-- 3.6, step 5: zone 0 is entered in its guard band, zone 1 is passed. -/
theorem test_sample_enters_and_passes :
    let s := after (.sample 0) (bringing (.sample 960 false) (carriage .outside .outside 1400))
    (news 0 s).map Event.kind = [.zoneEnter] ∧ (news 1 s).map Event.kind = [.zoneEnter, .zonePass] ∧
    s.capture.waiting.map (fun c => (c.zone, c.event)) = [(0, .enter), (1, .pass)] := by decide +kernel

/-- 3.6, rebase to 1,310: filter CROSSINGS hears nothing of it. -/
theorem test_rebaseNotice_judges_afresh :
    let s := after (.rebaseNotice 0) (bringing (.rebase 1310 .offset) (carriage .inside .outside 960))
    (news 0 s).map Event.kind = [.zoneExit] ∧ (news 1 s).map (fun e => (e.kind, e.cause)) = [(.zoneEnter, some .offset)] ∧
    s.capture.waiting = [] := by decide +kernel

/-- R61, log 20: a rebase to the last evaluated position is taken and leaves an INSIDE zone in its guard band as it is;
from one position further off the same notice takes it OUTSIDE. -/
theorem test_rebaseNotice_to_the_same_position :
    let s := after (.rebaseNotice 0) (bringing (.rebase 1210 .offset) (carriage .inside .outside 1210))
    let t := after (.rebaseNotice 0) (bringing (.rebase 1210 .offset) (carriage .inside .outside 1211))
    ((s.zones.get 0).zone.map Zone.membership, news 0 s, (s.axes.get 0).outbox) = (some .inside, [], []) ∧
    ((t.zones.get 0).zone.map Zone.membership, (news 0 t).map Event.kind) = (some .outside, [.zoneExit]) := by decide +kernel

/-- 3.6, freeze; and the thaw that follows a new START. -/
theorem test_freezeNotice_and_thawNotice :
    let s := after (.freezeNotice 0) (bringing (.freeze 1310 .stop) (carriage .outside .outside 1310))
    (news 0 s).map Event.kind = [.zoneFrozen] ∧ (news 1 s).map Event.kind = [.zoneFrozen, .zoneFrozen] ∧
    (s.views.get 0).liveness = .frozen .stop ∧
    (news 1 (after (.thawNotice 0) (bringing (.thaw 1310 .start) s))).map Event.kind =
      [.zoneFrozen, .zoneFrozen, .zoneThawed, .zoneThawed, .zoneEnter] := by decide +kernel

/-- 3.6, set-up: the lowest EMPTY slot. -/
theorem test_defineZone_takes_the_lowest_slot :
    answer 1 (served 1 (.defineZone 0 1300 1320 30 .enter (some .all)) (carriage .outside .outside 900)) =
      some (.ok, [2, 1, 0, 0, 0]) ∧
    answer 1 (served 1 (.defineZone 0 1300 2147483647 30 .enter none) (carriage .outside .outside 900)) =
      some (.badArgument, []) := by decide +kernel

/-- 3.6, edit. -/
theorem test_modifyZone_evaluates_afresh :
    let s := served 1 (.modifyZone 1 1 1400 1500 30 .enter) (carriage .outside .inside 1310)
    answer 1 s = some (.ok, [2, 0, 0, 0]) ∧ (news 1 s).map (fun e => (e.kind, e.cause)) = [(.zoneExit, some .edit)] ∧
    answer 0 (served 0 (.modifyZone 1 1 1400 1500 30 .enter) (carriage .outside .inside 1310)) = some (.notAuthor, []) := by
  decide +kernel

theorem test_deleteZone_keeps_the_generation :
    let s := served 0 (.deleteZone 0 1) (carriage .outside .inside 1310)
    answer 0 s = some (.ok, [1, 0]) ∧ s.zones.get 0 = ⟨1, none⟩ ∧ (news 1 s).map Event.kind = [.zoneRemoved] ∧ news 0 s = [] ∧
    answer 0 (served 0 (.deleteZone 0 2) (carriage .outside .inside 1310)) = some (.generationMismatch, [1, 0]) := by
  decide +kernel

theorem test_readZone_layout :
    answer 3 (served 3 (.readZone 0) (carriage .outside .inside 1310)) =
      some (.ok, [0, 1, 0, 0, 0xE8, 3, 0, 0, 0xB0, 4, 0, 0, 50, 0, 3, 0, 0, 0, 0, 0x1E, 5, 0, 0, 2, 0, 2, 1, 1]) ∧
    answer 3 (served 3 (.readZone 2) (carriage .outside .inside 1310)) = some (.noSuchZone, [0, 0]) := by decide +kernel

theorem test_listZones_layout :
    answer 3 (served 3 (.listZones 1) (carriage .outside .inside 1310)) = some (.ok, [1, 0xFF, 1, 0, 1, 1, 0, 1]) := by
  decide +kernel

theorem test_subscribeZone_and_unsubscribeZone :
    answer 2 (served 2 (.subscribeZone 0 1 .crossings) (carriage .inside .outside 1100)) = some (.ok, [1, 0, 1, 0]) ∧
    answer 2 (served 2 (.unsubscribeZone 0) (carriage .inside .outside 1100)) = some (.notSubscribed, []) ∧
    answer 1 (served 1 (.unsubscribeZone 0) (carriage .inside .outside 1100)) = some (.ok, []) := by decide +kernel

/-- OUT3 of 4.9 with this holder, these waiters and this force; zone 5 live and INSIDE. -/
abbrev clamp (lease : Option Lease) (waiters : List Waiter) (force : Force) (requested expiry : Bool) : State :=
  { opened with
    ohold := false
    views := opened.views.put 1 ⟨5100, .live⟩
    zones := opened.zones.put 5 ⟨1, some ⟨1, 4000, 6000, 0, .none, 3, .inside, false, .all 4 none⟩⟩
    outputs := opened.outputs.put 3 ⟨32, lease, waiters, force, .hold, true, requested, expiry⟩
    drivers := opened.drivers.put 3 ⟨requested, true, requested⟩ }

/-- 4.9, steps 1, 4 and 6. -/
theorem test_claimOutput_grants_queues_and_keeps_the_place :
    (let s := served 0 (.claimOutput 3 200 false) (clamp none [] .none true false)
     answer 0 s = some (.ok, [200, 0]) ∧ (s.outputs.get 3).lease = some ⟨0, 200, 201⟩) ∧
    answer 1 (served 1 (.claimOutput 3 500 true) (clamp (some ⟨0, 200, 9⟩) [⟨2, 100⟩] .none true false)) =
      some (.queued, [2]) ∧
    answer 1 (served 1 (.claimOutput 3 500 true) (clamp (some ⟨0, 200, 9⟩) [⟨1, 500⟩, ⟨2, 100⟩] .none true false)) =
      some (.alreadyWaiting, [1]) := by decide +kernel

theorem test_renewLease_keeps_the_duration :
    ((served 0 (.renewLease 3 0) (clamp (some ⟨0, 200, 9⟩) [] .none true false)).outputs.get 3).lease = some ⟨0, 200, 201⟩ ∧
    answer 1 (served 1 (.renewLease 3 0) (clamp (some ⟨0, 200, 9⟩) [] .none true false)) = some (.notHolder, []) := by
  decide +kernel

/-- 4.9, step 17. -/
theorem test_releaseOutput_hands_over :
    let s := served 1 (.releaseOutput 3) (clamp (some ⟨1, 500, 9⟩) [⟨2, 100⟩] .on true false)
    answer 1 s = some (.ok, [2]) ∧ (s.outputs.get 3).lease = some ⟨2, 100, 101⟩ ∧ (s.outputs.get 3).force = .none ∧
    news 2 s = [⟨.leaseGranted, some .cancel, some (.line 3), none, 0, 100, 3000⟩] ∧ news 1 s = [] := by decide +kernel

theorem test_cancelWait :
    answer 2 (served 2 (.cancelWait 3) (clamp (some ⟨1, 500, 9⟩) [⟨2, 100⟩] .on true false)) = some (.ok, []) ∧
    answer 0 (served 0 (.cancelWait 3) (clamp (some ⟨1, 500, 9⟩) [⟨2, 100⟩] .on true false)) = some (.notWaiting, []) := by
  decide +kernel

theorem test_mapOutput_drives_the_line :
    answer 1 (served 1 (.mapOutput 3 0) (clamp (some ⟨1, 500, 9⟩) [] .none true false)) = some (.ok, [0]) ∧
    ((served 1 (.mapOutput 3 0) (clamp (some ⟨1, 500, 9⟩) [] .none true false)).drivers.get 3).pin = false ∧
    answer 1 (served 1 (.mapOutput 3 96) (clamp (some ⟨1, 500, 9⟩) [] .none true false)) = some (.noSuchZone, [6]) := by
  decide +kernel

/-- 4.9, steps 9 and 11. -/
theorem test_forceOutput_and_oholdChange :
    ((served 0 (.forceOutput 3 .off) (clamp (some ⟨0, 200, 9⟩) [] .none true false)).drivers.get 3).pin = false ∧
    ((after (.oholdChange true) (clamp (some ⟨0, 200, 9⟩) [] .on true false)).drivers.get 3) = ⟨true, true, false⟩ := by
  decide +kernel

theorem test_configureOutput_keeps_the_line_on :
    let s := served 0 (.configureOutput 3 .drop false) (clamp (some ⟨0, 200, 9⟩) [] .none true false)
    answer 0 s = some (.ok, [1]) ∧ (s.outputs.get 3).hold = false ∧ (s.drivers.get 3).hold = false := by decide +kernel

theorem test_readOutputs_reports_125_bytes :
    (answer 0 (served 0 .readOutputs (clamp (some ⟨0, 200, 9⟩) [⟨1, 500⟩] .none true false))).map
      (fun a => (a.2.length, (a.2.drop 45).take 15)) = some (125, [1, 1, 0, 1, 1, 0, 200, 0, 9, 0, 1, 32, 0, 0, 0]) := by
  decide +kernel

/-- 4.9, step 13, and the tick before it. -/
theorem test_leaseTick_and_leaseExpiry :
    (let s := after .leaseTick (clamp (some ⟨0, 200, 1⟩) [⟨1, 500⟩] .on true false)
     (s.outputs.get 3).lease = some ⟨0, 200, 0⟩ ∧ (s.outputs.get 3).expiryClaim = true ∧ s.timebase = 4000) ∧
    (let s := after (.leaseExpiry 3) (clamp (some ⟨0, 200, 0⟩) [⟨1, 500⟩, ⟨2, 100⟩] .on true true)
     (s.outputs.get 3).lease = some ⟨1, 500, 501⟩ ∧ (s.outputs.get 3).waiters = [⟨2, 100⟩] ∧ (s.outputs.get 3).requested = true ∧
     (news 0 s).map (fun e => (e.kind, e.value)) = [(.leaseLost, 200)] ∧
     (news 1 s).map (fun e => (e.kind, e.value)) = [(.leaseGranted, 500)]) := by decide +kernel

/-- 4.9, step 18. -/
theorem test_teardownStage5_ends_the_lease :
    let s := after (.teardownStage5 2) (closingAt 2 .five (clamp (some ⟨2, 100, 50⟩) [] .none true false))
    (s.outputs.get 3).lease = none ∧ (s.outputs.get 3).map = 32 ∧ (s.outputs.get 3).policy = .hold ∧
    (s.ports.get 2).session = .closing .six := by decide +kernel

/-- 8.7, stage 5: the author of zone 5 goes, its holder is told. -/
theorem test_teardownStage5_deletes_the_zones :
    let s := after (.teardownStage5 3) (closingAt 3 .five (clamp (some ⟨2, 100, 50⟩) [] .none true false))
    s.zones.get 5 = ⟨1, none⟩ ∧ (s.outputs.get 3).map = 0 ∧ (s.drivers.get 3).pin = false ∧
    news 2 s = [⟨.mapReduced, some .teardown, some (.line 3), none, 1, 5, 3000⟩] := by decide +kernel

/-! ### Event queues -/

/-- An event of zone 7, as in 5.7. -/
abbrev entry : Event := ⟨.zoneEnter, some .crossing, some (.zone 7), some (.membership .inside), 1, 0, 0⟩

/-- EQ1 holding records and one more on its way from the zone controller. -/
abbrev feeding (records : List EventRecord) (next : BitVec 16) (attention : Bool) : State :=
  { opened with
    queues := opened.queues.put 1
      { records := records, next := next, isOpen := true, attention := attention, attn := attention && !records.isEmpty
        arriving := [(.captureUnit, entry), (.zoneController, entry)] } }

/-- Records `a` to `a + n - 1`. -/
abbrev run (a : BitVec 16) (n : Nat) : List EventRecord := (List.range n).map fun k => ⟨a + BitVec.ofNat 16 k, entry⟩

/-- 5.7, steps 3 and 4. -/
theorem test_eventAppend_overflows :
    let s := after (.eventAppend 1 .zoneController) (feeding (run 1 31) 32 true)
    (s.queues.get 1).records.length = 32 ∧ (s.queues.get 1).next = 33 ∧ (s.queues.get 1).arriving.map Prod.fst = [.captureUnit] ∧
    ((s.queues.get 1).records.drop 31).map (fun r => (r.sequence, r.event.kind, r.event.value, r.event.detail)) =
      [(32, .overflow, 1, some (.marker false))] ∧
    (((after (.eventAppend 1 .captureUnit) s).queues.get 1).records.drop 31).map (fun r => r.event.value) = [2] := by
  decide +kernel

/-- 5.7, step 7: the marker is sealed. -/
theorem test_eventAppend_seals :
    let marker : EventRecord := ⟨32, ⟨.overflow, none, none, some (.marker false), 0, 4, 0⟩⟩
    let s := after (.eventAppend 1 .zoneController) (feeding (run 9 23 ++ [marker]) 33 true)
    ((s.queues.get 1).records.drop 23).map (fun r => (r.sequence, r.event.detail)) =
      [(32, some (.marker true)), (33, some (.membership .inside))] := by decide +kernel

/-- 5.7, steps 5, 6 and 8. -/
theorem test_fetchEvents_and_ackEvents :
    (answer 1 (served 1 (.fetchEvents 8) (feeding (run 1 32) 33 true))).map (fun a => (a.1, a.2.length, a.2.take 3)) =
      some (.ok, 130, [32, 8, 1]) ∧
    answer 1 (served 1 (.ackEvents 8) (feeding (run 1 32) 33 true)) = some (.ok, [8, 24]) ∧
    answer 1 (served 1 (.ackEvents 40) (feeding (run 9 25) 34 true)) = some (.badSequence, [25, 1, 9, 0]) := by
  decide +kernel

/-- 5.7, step 10. -/
theorem test_setAttention_disabled :
    let s := served 1 (.setAttention false) (feeding (run 33 1) 34 true)
    (s.queues.get 1).attn = false ∧ answer 1 s = some (.ok, [0, 1]) := by decide +kernel

/-! ### The capture ring -/

/-- A record of the ring with this number. -/
abbrev mark (n : Nat) : CaptureRecord := ⟨BitVec.ofNat 32 n, 0, .trigger 2, .rise, none, false, []⟩

/-- The ring of 6.7 holding records `a` to `a + 63`, with P3's and P1's cursors, TRG2 as given and one waiting claim. -/
abbrev marks (a : Nat) (c3 c1 : Option Cursor) (t : Trigger) : State :=
  { opened with
    triggers := opened.triggers.put 2 t
    capture :=
      { waiting := [⟨9, 4, .enter, 0, 52310, false, 7⟩]
        ring := (List.range 64).map fun k => mark (a + k)
        counter := BitVec.ofNat 32 (a + 63)
        cursors := ((Table.all 4 none).put 3 c3).put 1 c1 } }

/-- TRG2 authored by P3, edge RISE. -/
abbrev reader (level : Bool) (latch : Option Snapshot) (dropped : Bool) : Trigger :=
  ⟨level, some ⟨.rise, 3, 3⟩, latch, dropped⟩

/-- 6.7, step 1. -/
theorem test_configureTrigger :
    answer 3 (served 3 (.configureTrigger 2 (some .rise) 3) opened) = some (.ok, [1, 3, 3]) ∧
    answer 1 (served 1 (.configureTrigger 2 (some .rise) 3) (marks 37 none none (reader false none false))) =
      some (.triggerInUse, [3]) ∧
    answer 3 (served 3 (.configureTrigger 2 (some .rise) 0) opened) = some (.badArgument, []) := by decide +kernel

/-- R117, R118: an edge fills the latch; a second one is dropped. -/
theorem test_triggerEdge_latches_and_drops :
    ((after (.triggerEdge 2 .rise) (marks 37 none none (reader false none false))).triggers.get 2).latch =
      some ⟨.rise, 3000, [⟨0, 0, .frozen⟩, ⟨1, 0, .frozen⟩]⟩ ∧
    (let t := (after (.triggerEdge 2 .rise) (marks 37 none none (reader false (some ⟨.rise, 5, []⟩) false))).triggers.get 2
     t.dropped = true ∧ t.latch = some ⟨.rise, 5, []⟩) := by decide +kernel

/-- 6.7, steps 3 and 12. -/
theorem test_latchSnapshotWrite :
    (let s := after (.latchSnapshotWrite 2) (marks 37 (some ⟨101, 0⟩) none (reader true (some ⟨.rise, 5, []⟩) true))
     s.capture.counter = 101 ∧ s.capture.ring.length = 64 ∧ (s.capture.ring.map CaptureRecord.sequence).head? = some 38 ∧
     (s.capture.ring.getLast?.map CaptureRecord.precedingDropped) = some true ∧ (s.triggers.get 2).latch = none ∧
     (news 3 s).map (fun e => (e.kind, e.value)) = [(.captureReady, 101)]) ∧
    (let s := after (.latchSnapshotWrite 2) (marks 107 (some ⟨171, 0⟩) (some ⟨107, 0⟩) (reader true (some ⟨.rise, 5, []⟩) false))
     s.capture.cursors.get 1 = some ⟨108, 1⟩ ∧ (news 3 s).map Event.value = [171] ∧ news 1 s = []) := by decide +kernel

/-- 6.7: a zone 9 ENTER record, generation 4, one axis entry. -/
theorem test_zoneCaptureClaim :
    let s := after .zoneCaptureClaim (marks 37 none none (.reset false))
    s.capture.waiting = [] ∧
    s.capture.ring.getLast? = some ⟨101, 7, .zone 9, .enter, some 4, false, [⟨0, 52310, .live⟩]⟩ := by decide +kernel

/-- 6.7, steps 2 and 11. -/
theorem test_attachCursor :
    answer 3 (served 3 (.attachCursor .newest) (marks 37 none none (.reset false))) =
      some (.ok, [101, 0, 0, 0, 37, 0, 0, 0, 100, 0, 0, 0, 1]) ∧
    (let s := served 1 (.attachCursor .oldest) (marks 107 none none (.reset false))
     s.capture.cursors.get 1 = some ⟨107, 0⟩ ∧ (news 1 s).map Event.value = [107]) := by decide +kernel

/-- R126: on an empty ring the cursor stands at the record to come, whatever the field "oldest" reads. -/
theorem test_attachCursor_on_an_empty_ring :
    (served 1 (.attachCursor .oldest) opened).capture.cursors.get 1 = some ⟨1, 0⟩ ∧
    (served 1 (.attachCursor .oldest) opened).freeCount = 1 := by decide +kernel

theorem test_detachCursor :
    answer 1 (served 1 .detachCursor opened) = some (.noCursor, []) ∧
    (served 1 .detachCursor (marks 37 none (some ⟨40, 0⟩) (.reset false))).capture.cursors.get 1 = none := by decide +kernel

/-- 6.7, step 9. -/
theorem test_readCaptures :
    let s := served 3 (.readCaptures 4) (marks 107 (some ⟨107, 2⟩) none (.reset false))
    s.capture.cursors.get 3 = some ⟨111, 0⟩ ∧
    (answer 3 s).map (fun a => a.2.take 11) = some [2, 0, 0, 0, 111, 0, 0, 0, 60, 4, 107] := by decide +kernel

/-- 6.7, step 14. -/
theorem test_teardownStage3 :
    let s := after (.teardownStage3 3) (closingAt 3 .three (marks 109 (some ⟨171, 0⟩) (some ⟨109, 2⟩) (reader true none false)))
    s.capture.cursors.get 3 = none ∧ s.capture.cursors.get 1 = some ⟨109, 2⟩ ∧ (s.triggers.get 2).config = none := by
  decide +kernel

/-! ### Messages -/

/-- The pool of 7.7 after step 3. -/
abbrev notes : State :=
  { opened with
    pool := [⟨0, 0, 1, 2, true, List.replicate 12 0, 5⟩, ⟨1, 0, 1, 3, false, List.replicate 20 0, 6⟩,
      ⟨2, 1, 1, 2, true, List.replicate 48 0, 7⟩] }

/-- 7.7: the lowest free id; a length out of range. -/
theorem test_postMessage :
    (let s := served 0 (.postMessage 2 false [1, 2, 3, 4]) notes
     answer 0 s = some (.ok, [3, 0xB8, 0x0B, 0, 0, 3]) ∧ (news 2 s).map (fun e => (e.kind, e.source, e.value)) =
       [(.messageArrived, some (.message 3), 0)]) ∧
    answer 0 (served 0 (.postMessage 2 true (List.replicate 49 0)) notes) = some (.badArgument, []) := by decide +kernel

/-- 7.7, step 4. -/
theorem test_takeMessage :
    let s := served 2 .takeMessage notes
    (answer 2 s).map (fun a => a.2.take 10) = some [0, 0, 1, 1, 12, 5, 0, 0, 0, 1] ∧
    (news 0 s).map (fun e => (e.kind, e.value)) = [(.messageTaken, 2)] ∧
    answer 1 (served 1 .takeMessage notes) = some (.notFound, [0]) := by decide +kernel

theorem test_withdrawMessage :
    answer 0 (served 0 (.withdrawMessage 1) notes) = some (.ok, [3, 20, 6, 0, 0, 0]) ∧
    answer 0 (served 0 (.withdrawMessage 2) notes) = some (.notFound, []) := by decide +kernel

/-- 7.7, steps 9 and 10. -/
theorem test_teardownStage2 :
    (let s := after (.teardownStage2 3) (closingAt 3 .two notes)
     s.pool.map Message.id = [0, 2] ∧ (news 0 s).map (fun e => (e.kind, e.value)) = [(.messageUndelivered, 3)]) ∧
    (let s := after (.teardownStage2 0) (closingAt 0 .two notes)
     s.pool.map Message.senderSession = [0, 0, 1]) := by decide +kernel

/-! ### The link and sessions -/

/-- 8.6: a PUT of the example's IDENTIFY frame in READY. -/
theorem test_put_of_the_example :
    (answer 1 (after (.put 1 [0x05, 0x01, 0x00, 0x00, 0xDC]) ready)).map (fun a => (a.1, a.2.length)) = some (.ok, 24) ∧
    answer 1 (after (.put 1 [0x05, 0x01, 0x00, 0x00, 0xDD]) ready) = some (.checkError, []) := by decide +kernel

theorem test_get_delivers :
    let s := after (.get 0 7) (holding 0 opened)
    (s.ports.get 0).slot = .ready ∧ (s.ports.get 0).miso.take 7 = [0, 0x31, 6, 0x15, 9, 0, 0] ∧
    ((after (.get 0 6) (holding 0 opened)).ports.get 0).slot ≠ .ready := by decide +kernel

theorem test_peek_reports_the_flag_once :
    let s := { ready with ports := ready.ports.put 0 { ready.ports.get 0 with frameDiscarded := true } }
    ((after (.peek 0 1) s).ports.get 0).miso = [0, 0x03] ∧ ((after (.peek 0 1) s).ports.get 0).frameDiscarded = false ∧
    ((after (.peek 0 0) s).ports.get 0).frameDiscarded = true := by decide +kernel

/-- R160: the type byte selects the transaction. -/
theorem test_linkCommand_selects :
    linkCommand 2 [0xA5, 0x05, 0x01, 0x00, 0x00, 0xDC] = .put 2 [0x05, 0x01, 0x00, 0x00, 0xDC] ∧
    linkCommand 2 [0x5A, 0xA5, 0x3C] = .get 2 2 ∧ linkCommand 2 [0x3C, 0x00] = .peek 2 1 ∧
    linkCommand 2 [0x00, 0xA5] = .voidTransaction 2 [0x00, 0xA5] ∧ linkCommand 2 [] = .voidTransaction 2 [] := by decide

theorem test_voidTransaction_is_flagged :
    ((after (.voidTransaction 0 [0, 1]) ready).ports.get 0).frameDiscarded = true ∧
    ((after (.voidTransaction 0 [0, 1]) ready).ports.get 0).miso = [0, 0] := by decide +kernel

theorem test_identify_reports_the_port :
    (answer 2 (after (.identify 2 0 0) opened)).map (fun a => a.2.take 8) = some [0x1C, 0x3A, 1, 4, 0x10, 2, 1, 1] := by
  decide +kernel

theorem test_openSession_numbers :
    answer 0 (after (.openSession 0 0 0) ready) = some (.ok, [1, 0xB8, 0x0B, 0, 0]) ∧
    answer 0 (after (.openSession 0 0 0) { ready with ports := ready.ports.put 0 { ready.ports.get 0 with number := 255 } }) =
      some (.ok, [1, 0xB8, 0x0B, 0, 0]) ∧
    answer 0 (after (.openSession 0 0 0) opened) = some (.sessionOpen, []) := by decide +kernel

theorem test_closeSession_starts_teardown :
    let s := after (.closeSession 1 1 0) (feeding (run 33 1) 34 true)
    (s.ports.get 1).session = .closing .two ∧ (s.ports.get 1).closePending = true ∧ (s.queues.get 1).isOpen = false ∧
    (s.queues.get 1).records = [] ∧ (s.queues.get 1).attn = false ∧
    answer 1 (after (.closeSession 1 2 0) opened) = some (.staleSession, []) := by decide +kernel

theorem test_prstn_discards_the_slot :
    let s := after (.prstnAssert 1) (holding 1 opened)
    (s.ports.get 1).slot = .ready ∧ (s.ports.get 1).session = .closing .two ∧
    ((after (.prstnRelease 1) s).ports.get 1).prstn = false := by decide +kernel

theorem test_teardownStage6_answers_the_close :
    let u := { (closingAt 0 .six opened).ports.get 0 with closePending := true, slot := .working 3 8 false, number := 6 }
    let s := after (.teardownStage6 0) { opened with ports := opened.ports.put 0 u }
    (s.ports.get 0).slot = .answerReady ⟨3, 8, .ok, false, [6]⟩ ∧ (s.ports.get 0).session = .closed := by decide +kernel

/-! ### Part reset -/

theorem test_rstn_clears_and_starts :
    let s := after .rstnAssert { (clamp (some ⟨0, 200, 9⟩) [] .on true false) with timebase := 77 }
    s.timebase = 0 ∧ (s.outputs.get 3) = .reset ∧ (s.ports.get 0).session = .closed ∧ s.starting = false ∧ s.rstn = true ∧
    (after .rstnRelease s).starting = true := by decide +kernel

theorem test_supply_clears_and_returns :
    let s := after .supplyBelowRange opened
    s.supplyOk = false ∧ (s.ports.get 0).session = .closed ∧ (after .supplyReturnToRange s).starting = true ∧
    (after .supplyReturnToRange s).supplyOk = true := by decide +kernel

theorem test_startupPeriodEnd :
    (after .startupPeriodEnd State.reset).starting = false ∧ (after .startupPeriodEnd State.reset).timebase = 3000 := by
  decide +kernel

/-! ### Hypotheses that are met

For every obligation that has hypotheses, a state and operands that meet them together; where it has clauses, each clause
of its own. -/

/-- The one hypothesis of a statement about a request is met by every request of every port. -/
theorem flying_flies (p : Port) (r : Request) (s : State) : (flying p r s).Flying p r true [] := by
  simp [State.Flying, flying, takeFirst, pick, Table.get, Table.put]

/-- A table of facts, one for each index, read as a statement about every value present. -/
theorem ofAll {α : Type} {o : Option α} {P : α → Prop} [DecidablePred P] (h : (o.all fun a => decide (P a)) = true) :
    ∀ a, o = some a → P a := by
  rintro a rfl; simpa using h

theorem met_StepRunsFrontCommand :
    ({ ready with pending := [.leaseTick, .rstnAssert] } : State).pending = .leaseTick :: [.rstnAssert] := rfl

theorem met_IdleStepIsOneMicrosecond :
    ({ ready with sinceTick := 999 } : State).pending = [] ∧ ({ ready with sinceTick := 999 } : State).TimeLaw ∧
    ({ State.reset with timebase := 2999, sinceTick := 999 } : State).TimeLaw :=
  ⟨rfl, ⟨by decide, by decide, by decide⟩, ⟨by decide, by decide, by decide⟩⟩

theorem met_NothingToTakeChangesNothing :
    (∀ r aw rest, ¬ ready.Flying 0 r aw rest) ∧ (ready.axes.get 0).outbox.head? = none ∧
    (opened.queues.get 0).arriving = [] ∧ (ready.outputs.get 7).expiryClaim = false ∧ (ready.triggers.get 3).latch = none ∧
    ready.capture.waiting = [] ∧ (ready.ports.get 0).session ≠ .closing .two ∧ (ready.ports.get 0).session ≠ .closing .three ∧
    (∀ taken, (ready.ports.get 0).session = .closing (.four taken) → taken.get 0 = true) ∧
    (ready.ports.get 0).session ≠ .closing .five ∧ (ready.ports.get 0).session ≠ .closing .six ∧
    ((after (.prstnAssert 0) ready).ports.get 0).prstn = true ∧ ((after (.lineFaultRise 3) ready).axes.get 3).lineFault = true ∧
    ready.rstn = false ∧ ready.supplyOk = true ∧ ready.starting = false := by
  refine ⟨?_, by decide, by decide, by decide, by decide, by decide, by decide, by decide, ?_, by decide, by decide,
    by decide +kernel, by decide +kernel, by decide, by decide, by decide⟩
  · intro r aw rest h
    have e : (ready.ports.get 0).inFlight = [] := by decide
    rw [State.Flying, e] at h
    exact nomatch h
  · intro taken h
    have e : (ready.ports.get 0).session = .closed := by decide
    rw [e] at h
    exact nomatch h

/-- A stage that is next while a request of the port to its owner is in flight; levels at rest; reset held. -/
theorem met_NothingToTake_waits_and_levels :
    ((closingAt 0 .two (flying 0 .takeMessage opened)).ports.get 0).session = .closing .two ∧
    inFlightTo .messageRelay ((closingAt 0 .two (flying 0 .takeMessage opened)).ports.get 0).inFlight = true ∧
    inFlightTo .captureUnit ((closingAt 0 .three (flying 0 .detachCursor opened)).ports.get 0).inFlight = true ∧
    inFlightTo (.axisUnit 3) ((closingAt 0 (.four (.all 4 false)) (flying 0 (.start 3) opened)).ports.get 0).inFlight = true ∧
    inFlightTo .zoneController ((closingAt 0 .five (flying 0 .readOutputs opened)).ports.get 0).inFlight = true ∧
    (ready.ports.get 0).prstn = false ∧ (ready.axes.get 3).lineFault = false ∧ (after .rstnAssert ready).rstn = true ∧
    (after .supplyBelowRange ready).supplyOk = false := by decide +kernel

theorem met_IgnoredLinkChangesNothing :
    (after .rstnAssert ready).rstn = true ∧ (after .supplyBelowRange ready).supplyOk = false ∧
    ((after (.prstnAssert 2) ready).ports.get 2).prstn = true ∧ isTypeCode 0xA6 = false := by decide +kernel

theorem met_PutDiscarded :
    State.reset.linkIgnored 0 = false ∧ State.reset.starting = true ∧ (flying 1 .readAxes opened).linkIgnored 1 = false ∧
    ((flying 1 .readAxes opened).ports.get 1).slot = .working 0x15 7 false := by decide +kernel

/-- A frame is taken in READY without a note, in ANSWER_READY with it. -/
theorem met_Takes : opened.Takes 0 false ∧ (holding 0 opened).Takes 0 true ∧ (closingAt 0 .six opened).Takes 0 false ∧
    ready.Takes 0 false :=
  ⟨⟨by decide, by decide, .inl ⟨rfl, by decide⟩⟩, ⟨by decide, by decide, .inr ⟨rfl, _, by rfl⟩⟩,
    ⟨by decide, by decide, .inl ⟨rfl, by decide⟩⟩, ⟨by decide, by decide, .inl ⟨rfl, by decide⟩⟩⟩

/-- Frames at the edges of the tests: 4 and 5 bytes, lengths 4, 64 and 65, one byte too many, a wrong check byte. -/
theorem met_PutFrameTests :
    frameVerdict [4, 1, 0, 0] = some .frameError ∧ frameVerdict [4, 1, 0, 0, 0] = some .frameError ∧
    frameVerdict (65 :: List.replicate 64 0) = some .frameError ∧ frameVerdict (64 :: List.replicate 64 0) = some .frameError ∧
    frameVerdict (64 :: List.replicate 63 1) = some .checkError ∧ frameVerdict [5, 1, 0, 0, 0xDD] = some .checkError ∧
    frameVerdict [5, 1, 0, 0, 0xDC] = none := by decide +kernel

theorem met_PutRefused :
    opened.Takes 0 false ∧ (requestRow 0x04).isNone = true ∧ (requestRow 0x02).isSome = true ∧
    (opened.ports.get 0).session = .opened ∧ ((closingAt 0 .two opened).ports.get 0).session = .closing .two ∧
    (ready.ports.get 0).session = .closed ∧ (0 : Byte) ≠ (opened.ports.get 0).number ∧
    ((requestRow 0x01).map fun r => r.parse [0]) = some (.error 0xFF) ∧
    ((requestRow 0x02).map fun r => r.parse [0]) = some (.error 0xFF) ∧
    ((requestRow 0x12).map fun r => r.parse [4]) = some (.error 0) ∧
    ((requestRow 0x01).map fun r => r.parse []) = some (.ok .identify) ∧
    ((requestRow 0x02).map fun r => r.parse []) = some (.ok .openSession) ∧
    ((requestRow 0x03).map fun r => r.parse []) = some (.ok .closeSession) ∧
    ((requestRow 0x35).map fun r => r.parse [7, 2]) = some (.ok (.dispatched (.forceOutput 7 .off))) :=
  ⟨met_Takes.1, by decide, by decide, by decide, by decide, by decide, by decide, by decide +kernel, by decide +kernel,
    by decide +kernel, by decide +kernel, by decide +kernel, by decide +kernel, by decide +kernel⟩

/-- The longest request is well-formed, and so is each extreme of a signed field. -/
theorem met_PutDispatched :
    opened.Takes 3 false ∧ (opened.ports.get 3).session = .opened ∧ (Request.postMessage 3 true (List.replicate 56 1)).wellFormed = true ∧
    (Request.defineZone 3 (-2147483648) 2147483647 65535 .both (some .all)).wellFormed = true :=
  ⟨⟨by decide, by decide, .inl ⟨rfl, by decide⟩⟩, by decide, by decide, by decide⟩

theorem met_link_alive : ready.linkIgnored 0 = false ∧ State.reset.linkIgnored 3 = false := by decide

theorem met_VoidTransactionIsFlagged :
    ready.linkIgnored 0 = false ∧ (0xA4 : Byte) ≠ 0xA5 ∧ (0xA4 : Byte) ≠ 0x5A ∧ (0xA4 : Byte) ≠ 0x3C := by decide

theorem met_OpenSession_CloseSession :
    ready.Takes 0 false ∧ (ready.ports.get 0).session = .closed ∧ opened.Takes 0 false ∧
    (opened.ports.get 0).session = .opened ∧ (opened.ports.get 0).number = 1 ∧
    (closingAt 0 .six opened).Takes 0 false ∧ ((closingAt 0 .six opened).ports.get 0).session = .closing .six :=
  ⟨met_Takes.2.2.2, by decide, met_Takes.1, by decide, by decide, met_Takes.2.2.1, by decide⟩

theorem met_PortReset :
    (ready.ports.get 0).prstn = false ∧ (ready.ports.get 0).session ≠ .opened ∧ (opened.ports.get 0).prstn = false ∧
    (opened.ports.get 0).session = .opened := by decide

/-- Every stage of a teardown can be the next, with nothing in flight to the owner that takes it. -/
theorem met_Teardown :
    (∀ st : Stage, ((closingAt 2 st opened).ports.get 2).session = .closing st) ∧
    (∀ o, inFlightTo o (opened.ports.get 2).inFlight = false) ∧ (Table.all 4 false).get (3 : Axis) = false ∧
    (((Table.all 4 true).put (3 : Axis) false).get 3) = false := by
  refine ⟨fun st => by simp [closingAt, Table.get, Table.put], fun o => ?_, by decide, by decide⟩
  have e : (opened.ports.get 2).inFlight = [] := by decide
  rw [e]; rfl

theorem met_TeardownStage6 :
    let u := { (closingAt 0 .six opened).ports.get 0 with closePending := true, slot := .working 3 8 false }
    let s : State := { opened with ports := opened.ports.put 0 u }
    (s.ports.get 0).session = .closing .six ∧ (s.ports.get 0).closePending = true ∧ (s.ports.get 0).slot = .working 3 8 false ∧
    ((closingAt 0 .six opened).ports.get 0).closePending = false := by decide +kernel

theorem met_StartUp :
    (after .rstnAssert ready).rstn = true ∧ (after .supplyBelowRange ready).supplyOk = false ∧ State.reset.starting = true ∧
    State.reset.rstn = false ∧ State.reset.supplyOk = true := by decide +kernel

theorem met_ConfigureAxis :
    (flying 2 (.configureAxis 1 4 .normal 0 100000 7 15) opened).Flying 2 (.configureAxis 1 4 .normal 0 100000 7 15) true [] :=
  flying_flies ..

theorem met_Start_Stop_Resume :
    (flying 2 (.start 1) opened).Flying 2 (.start 1) true [] ∧ (flying 2 (.stop 1) opened).Flying 2 (.stop 1) true [] ∧
    (flying 2 (.resume 1) opened).Flying 2 (.resume 1) true [] := ⟨flying_flies .., flying_flies .., flying_flies ..⟩

theorem met_SetOffset : (flying 0 (.setOffset 3 1073741824) opened).Flying 0 (.setOffset 3 1073741824) true [] :=
  flying_flies ..

theorem met_Align_CancelAlign :
    (flying 0 (.align 2 5000 .none .any) opened).Flying 0 (.align 2 5000 .none .any) true [] ∧
    (flying 0 (.cancelAlign 2) opened).Flying 0 (.cancelAlign 2) true [] := ⟨flying_flies .., flying_flies ..⟩

theorem met_SignalFault : (opened.axes.get 3).lineFault = false := by decide

theorem met_Subscriptions :
    (flying 0 (.subscribeAxis 3) opened).Flying 0 (.subscribeAxis 3) true [] ∧
    (flying 0 (.unsubscribeAxis 3) opened).Flying 0 (.unsubscribeAxis 3) true [] ∧
    (flying 0 (.subscribeZone 31 1 .all) opened).Flying 0 (.subscribeZone 31 1 .all) true [] ∧
    (flying 0 (.unsubscribeZone 31) opened).Flying 0 (.unsubscribeZone 31) true [] :=
  ⟨flying_flies .., flying_flies .., flying_flies .., flying_flies ..⟩

theorem met_Sample_Notices :
    ((bringing (.sample 960 true) opened).axes.get 0).outbox = .sample 960 true :: [] ∧
    ((bringing (.rebase 960 .align) opened).axes.get 0).outbox = .rebase 960 .align :: [] ∧
    ((bringing (.freeze 960 .stop) opened).axes.get 0).outbox = .freeze 960 .stop :: [] ∧
    ((bringing (.thaw 960 .resume) opened).axes.get 0).outbox = .thaw 960 .resume :: [] := by decide +kernel

/-- The first slot EMPTY, the last alone EMPTY, and none. -/
theorem met_DefineZone :
    let full : Table 32 Slot := .all 32 ⟨1, some ⟨0, 0, 0, 0, .none, 0, .outside, false, .all 4 none⟩⟩
    (flying 0 (.defineZone 0 0 0 0 .none none) { opened with zones := full }).Flying 0 (.defineZone 0 0 0 0 .none none) true [] ∧
    (∀ z, (full.get z).zone ≠ none) ∧ (opened.zones.get 0).zone = none ∧
    (((full.put 31 .reset).get 31).zone = none ∧ ∀ y < (31 : ZoneId), ((full.put 31 .reset).get y).zone ≠ none) :=
  ⟨flying_flies .., by decide +kernel, by decide +kernel, by decide +kernel⟩

theorem met_ModifyZone_DeleteZone :
    (flying 0 (.modifyZone 0 1 0 5 0 .none) (carriage .inside .outside 5)).Flying 0 (.modifyZone 0 1 0 5 0 .none) true [] ∧
    (flying 0 (.deleteZone 0 1) (carriage .inside .outside 5)).Flying 0 (.deleteZone 0 1) true [] ∧
    ((carriage .inside .outside 5).zones.get 0).zone.isSome = true ∧ ((carriage .inside .outside 5).zones.get 2).zone = none :=
  ⟨flying_flies .., flying_flies .., by decide +kernel, by decide +kernel⟩

theorem met_ReadRequests :
    (flying 0 .readAxes opened).Flying 0 .readAxes true [] ∧ (flying 0 (.readZone 31) opened).Flying 0 (.readZone 31) true [] ∧
    (flying 0 (.listZones 31) opened).Flying 0 (.listZones 31) true [] ∧
    (flying 0 .readOutputs opened).Flying 0 .readOutputs true [] ∧
    (flying 0 (.fetchEvents 8) opened).Flying 0 (.fetchEvents 8) true [] :=
  ⟨flying_flies .., flying_flies .., flying_flies .., flying_flies .., flying_flies ..⟩

theorem met_ClaimOutput : (flying 0 (.claimOutput 7 10000 true) opened).Flying 0 (.claimOutput 7 10000 true) true [] :=
  flying_flies ..

theorem met_RenewReleaseCancelWait :
    (flying 0 (.renewLease 7 0) opened).Flying 0 (.renewLease 7 0) true [] ∧
    (flying 0 (.releaseOutput 7) opened).Flying 0 (.releaseOutput 7) true [] ∧
    (flying 0 (.cancelWait 7) opened).Flying 0 (.cancelWait 7) true [] := ⟨flying_flies .., flying_flies .., flying_flies ..⟩

theorem met_HolderRequests :
    (flying 0 (.mapOutput 7 0x80000001) opened).Flying 0 (.mapOutput 7 0x80000001) true [] ∧
    (flying 0 (.forceOutput 7 .on) opened).Flying 0 (.forceOutput 7 .on) true [] ∧
    (flying 0 (.configureOutput 7 .hold true) opened).Flying 0 (.configureOutput 7 .hold true) true [] :=
  ⟨flying_flies .., flying_flies .., flying_flies ..⟩

theorem met_LeaseTicksAndHold :
    ready.inReset = false ∧ ((clamp (some ⟨0, 200, 0⟩) [] .none true true).outputs.get 3).expiryClaim = true := by decide +kernel

/-- The oldest record of the zone controller stands behind one of the capture unit. -/
theorem met_EventAppend :
    ((feeding (run 1 31) 32 true).queues.get 1).arriving = [(.captureUnit, entry)] ++ (.zoneController, entry) :: [] ∧
    ∀ a ∈ [((.captureUnit : Producer), entry)], a.1 ≠ .zoneController := by decide +kernel

theorem met_AckEventsSetAttention :
    (flying 1 (.ackEvents 8) (feeding (run 1 31) 32 true)).Flying 1 (.ackEvents 8) true [] ∧
    (flying 1 (.setAttention true) (feeding (run 1 31) 32 true)).Flying 1 (.setAttention true) true [] :=
  ⟨flying_flies .., flying_flies ..⟩

theorem met_Triggers :
    (opened.triggers.get 3).level ≠ decide (InputEdge.rise = .rise) ∧
    (((after (.triggerEdge 3 .rise) opened).triggers.get 3).level ≠ decide (InputEdge.fall = .rise)) ∧
    (flying 3 (.configureTrigger 3 none 0) opened).Flying 3 (.configureTrigger 3 none 0) true [] :=
  ⟨by decide, by decide +kernel, flying_flies ..⟩

theorem met_CaptureWrites :
    ((marks 37 none none (reader true (some ⟨.rise, 5, []⟩) true)).triggers.get 2).latch = some ⟨.rise, 5, []⟩ ∧
    (marks 37 none none (.reset false)).capture.waiting = ⟨9, 4, .enter, 0, 52310, false, 7⟩ :: [] := by decide +kernel

theorem met_Cursors :
    (flying 3 (.attachCursor .oldest) opened).Flying 3 (.attachCursor .oldest) true [] ∧
    (flying 3 .detachCursor opened).Flying 3 .detachCursor true [] ∧
    (flying 3 (.readCaptures 4) opened).Flying 3 (.readCaptures 4) true [] :=
  ⟨flying_flies .., flying_flies .., flying_flies ..⟩

/-- POST MESSAGE with one place free (id 15), TAKE and WITHDRAW. -/
theorem met_Messages :
    let nearly : State := { opened with pool := (List.range 15).map fun k => ⟨BitVec.ofNat 8 k, 0, 0, 1, false, [1], 0⟩ }
    (flying 2 (.postMessage 1 true [1]) nearly).Flying 2 (.postMessage 1 true [1]) true [] ∧ nearly.pool.length < 16 ∧
    (flying 2 .takeMessage nearly).Flying 2 .takeMessage true [] ∧
    (flying 2 (.withdrawMessage 0) nearly).Flying 2 (.withdrawMessage 0) true [] :=
  ⟨flying_flies .., by decide, flying_flies .., flying_flies ..⟩

/-! ### States that meet the laws, from which a step runs -/

/-- With no command waiting the step answers a next state: the states below run on. -/
theorem steps_on (s : State) (h : s.pending = []) : ∃ t, step s = .next t := ⟨_, by rw [step, h]⟩

theorem met_TimeLawKept : ({ ready with sinceTick := 999 } : State).TimeLaw :=
  ⟨by decide, by decide, by decide⟩

theorem met_SlotLawKept : (flying 1 .readAxes opened).SlotLaw :=
  fun p => ⟨by revert p; decide +kernel, by revert p; decide +kernel⟩

/-- P0 holds OUT3, P1 waits, P3 authors zone 5; P2 is CLOSING before stage 6. -/
theorem met_SessionLawKept : (closingAt 2 .six (clamp (some ⟨0, 200, 9⟩) [⟨1, 500⟩] .on true false)).SessionLaw where
  flights := by decide +kernel
  holders := fun o => ofAll (by revert o; decide +kernel)
  waiters := by decide +kernel
  authors := fun z => ofAll (by revert z; decide +kernel)
  zoneSubscribers := fun z zn p h => (ofAll (P := fun zn : Zone => ∀ p, (zn.subscribers.get p).isSome = true →
    ((closingAt 2 .six (clamp (some ⟨0, 200, 9⟩) [⟨1, 500⟩] .on true false)).ports.get p).session.mayZone = true)
    (by clear h zn; revert z; decide +kernel)) zn h p
  axisSubscribers := by decide +kernel
  aligners := fun ax a h => by
    have e : ∀ ax, ((closingAt 2 .six (clamp (some ⟨0, 200, 9⟩) [⟨1, 500⟩] .on true false)).axes.get ax).state = .idle := by
      decide +kernel
    rw [e] at h; exact nomatch h
  cursors := fun p => ofAll (by revert p; decide +kernel)
  triggers := fun t => ofAll (by revert t; decide +kernel)

theorem met_QueueLawKept : (feeding (run 1 31) 32 true).QueueLaw := by
  intro p
  refine ⟨⟨by revert p; decide +kernel, ?_, by revert p; decide +kernel, by revert p; decide +kernel⟩, by revert p; decide +kernel⟩
  by_cases h : p = 1
  · subst h
    have e : ((feeding (run 1 31) 32 true).queues.get 1).records.map EventRecord.sequence =
        (List.range 31).map fun k => 1 + BitVec.ofNat 16 k := by decide +kernel
    have n : ((feeding (run 1 31) 32 true).queues.get 1).next = 32 := by decide +kernel
    rw [e, n]; simp [endsBefore, List.range_succ]
  · have e : ((feeding (run 1 31) 32 true).queues.get p).records = [] := by revert p; decide +kernel
    rw [e]; trivial

/-- Axis 2 is ARMED with a sample on its way to a live view. -/
abbrev pressing : State :=
  let s := press (.armed ⟨0, 5000, .none, .any⟩) 2730 none
  { withAxis 2 { s.axes.get 2 with outbox := [.sample 2830 false] } s with views := s.views.put 2 ⟨2829, .live⟩ }

theorem met_AxisLawKept : pressing.AxisLaw := by
  refine fun ax => ⟨⟨by revert ax; decide +kernel, by revert ax; decide +kernel, by revert ax; decide +kernel, fun a h => ?_⟩,
    by revert ax; decide +kernel⟩
  have e : ∀ ax, (pressing.axes.get ax).state = .idle ∨
      (pressing.axes.get ax).state = .armed ⟨0, 5000, .none, .any⟩ ∧ (pressing.axes.get ax).presetOk 5000 = true := by
    decide +kernel
  rcases e ax with e | ⟨e, ok⟩ <;> rw [e] at h <;> cases h
  exact ok

/-- The zones of 3.6, axis 0 live. -/
theorem met_ZoneLawKept : (carriage .inside .outside 1050).ZoneLaw where
  bounds := fun z => ofAll (by revert z; decide +kernel)
  frozen := fun z => ofAll (by revert z; decide +kernel)
  authors := by decide +kernel

/-- OUT3 of 4.9, held with two waiters and ON. -/
theorem met_OutputLawKept : (clamp (some ⟨0, 200, 201⟩) [⟨1, 500⟩, ⟨2, 100⟩] .none true false).OutputLaw where
  leases := fun o => ⟨by revert o; decide +kernel, by revert o; decide +kernel, by revert o; decide +kernel,
    ofAll (by revert o; decide +kernel), ofAll (by revert o; decide +kernel), by revert o; decide +kernel⟩
  maps := by decide +kernel
  values := by decide +kernel
  pins := by decide +kernel

/-- A ring of two records, P3 caught up and P1 at the oldest. -/
theorem met_CaptureLawKept :
    ({ waiting := [], ring := [mark 6, mark 7], counter := 7,
       cursors := ((Table.all 4 none).put 3 (some ⟨8, 0⟩)).put 1 (some ⟨6, 2⟩) } : CaptureUnit).Law where
  capacity := by decide
  numbered := by simp [endsBefore]
  places := fun p => ofAll (by revert p; decide +kernel)
  caughtUp := fun p => ofAll (by revert p; decide +kernel)

theorem met_PoolLawKept : notes.PoolLaw ∧ notes.SessionLaw where
  left :=
    { capacity := by decide, idsApart := by decide, idsLow := by decide, recipients := by decide +kernel
      senders := by decide +kernel, limits := by decide +kernel, lengths := by decide }
  right :=
    { flights := by decide +kernel
      holders := fun o => ofAll (by revert o; decide +kernel)
      waiters := by decide +kernel
      authors := fun z => ofAll (by revert z; decide +kernel)
      zoneSubscribers := fun z zn p h => nomatch h.symm.trans ((by decide +kernel : ∀ z, (notes.zones.get z).zone = none) z)
      axisSubscribers := by decide +kernel
      aligners := fun ax a h => nomatch h.symm.trans ((by decide +kernel : ∀ ax, (notes.axes.get ax).state = .idle) ax)
      cursors := fun p => ofAll (by revert p; decide +kernel)
      triggers := fun t => ofAll (by revert t; decide +kernel) }

end Sys2Proof.Tests
end

section
/-!
PROOFS. The axis requests of 01 (START, STOP, RESUME, SET OFFSET): the conditions they test, read as inequalities; the
events they hand over, read port by port; what each request's work does, one equation per case of its rule; and from
these the four statements of the family.
-/

namespace Sys2Proof.Machine

/-! ### The conditions of R7 and R14 -/

theorem AxisUnit.inWindow_eq_false_iff (u : AxisUnit) (x : Int) :
    u.inWindow x = false ↔ x < u.config.low ∨ u.config.high < x := by
  simp only [AxisUnit.inWindow, Bool.and_eq_false_iff, decide_eq_false_iff_not, not_le]

theorem countInside_eq_false_iff (c : Int) : countInside c = false ↔ c ≤ -1073741824 ∨ 1073741823 ≤ c := by
  simp only [countInside, Bool.and_eq_false_iff, decide_eq_false_iff_not, not_lt]; rfl

theorem AxisUnit.inRange_eq_false_iff (u : AxisUnit) :
    u.inRange = false ↔ u.position < u.config.low ∨ u.config.high < u.position ∨
      u.count ≤ -1073741824 ∨ 1073741823 ≤ u.count := by
  rw [AxisUnit.inRange, Bool.and_eq_false_iff, inWindow_eq_false_iff, countInside_eq_false_iff, or_assoc]

theorem offsetInRange_eq_false_iff (x : Int) : offsetInRange x = false ↔ x < -1073741824 ∨ 1073741823 < x := by
  simp only [offsetInRange, Bool.and_eq_false_iff, decide_eq_false_iff_not, not_le]; rfl

/-! ### The axis unit's events, port by port -/

/-- R18: a port is told the new state exactly when it is a subscriber. -/
@[simp] theorem eventsFor_stateEvents (q : Port) (ax : Axis) (now : Word) (cause : Cause) (u : AxisUnit) :
    eventsFor q (u.stateEvents ax now cause) =
      if u.subscribers.get q then [axisEvent .axisState cause ax now u.state.tag u.position] else [] :=
  eventsFor_having q id u.subscribers _

theorem AxisUnit.abortedEvents_armed {u : AxisUnit} {a : Alignment} (h : u.state = .armed a) (ax : Axis) (now : Word)
    (cause : Cause) (tag : AxisTag) :
    u.abortedEvents ax now cause tag = [(a.aligner, axisEvent .alignAborted cause ax now tag u.position)] := by
  simp [AxisUnit.abortedEvents, h]

theorem AxisUnit.abortedEvents_not_armed {u : AxisUnit} (h : ∀ a, u.state ≠ .armed a) (ax : Axis) (now : Word)
    (cause : Cause) (tag : AxisTag) : u.abortedEvents ax now cause tag = [] := by
  unfold AxisUnit.abortedEvents; split
  · next a ha => exact absurd ha (h a)
  · rfl

/-! ### A claim whose work is known -/

section

variable {s : State} {p : Port} {r : Request} {aw : Bool} {rest : List Dispatch} {work : State → State × Answer}
  {a : Answer}

/-- Work that changes nothing: the answer alone comes back. -/
theorem claim_of_kept (h : s.Flying p r aw rest) (hw : work (s.withInFlight p rest) = (s.withInFlight p rest, a)) :
    claim p r work s = .next (s.answered p aw rest a) := by
  rw [claim_next h work (by rw [hw]), hw]; rfl

/-- Work that replaces one axis unit. -/
theorem claim_of_setAxis {ax : Axis} {u : AxisUnit} (h : s.Flying p r aw rest)
    (hw : work (s.withInFlight p rest) = ((s.withInFlight p rest).setAxis ax u, a)) :
    claim p r work s = .next { s.answered p aw rest a with axes := s.axes.put ax u } := by
  rw [claim_next h work (by rw [hw]; rfl), hw]; rfl

/-- Work that is a step of one axis unit: the unit replaced, and each port handed the events meant for it. -/
theorem claim_of_axisStep {ax : Axis} {u : AxisUnit} {es : List (Port × Event)} {told : Port → List Event}
    (h : s.Flying p r aw rest)
    (hw : work (s.withInFlight p rest) = ((s.withInFlight p rest).axisStep ax (u, es), a))
    (ht : ∀ q, eventsFor q es = told q) :
    claim p r work s =
      .next { s.answered p aw rest a with axes := s.axes.put ax u, queues := s.told (.axisUnit ax) told } := by
  obtain rfl : (fun q => eventsFor q es) = told := funext ht
  rw [claim_next h work (by rw [hw]; rfl), hw]; rfl

end

/-! ### The work of each request, one equation per case of its rule (R11, R12, R13, R14) -/

section

variable {s : State} {ax : Axis}

/-- R11: at a start the count is 0, so that the position is the offset. -/
@[simp] theorem AxisUnit.started_position (u : AxisUnit) : u.started.position = u.offset := by
  simp [AxisUnit.started, AxisUnit.position]

theorem startAxis_of_not_idle (hi : (s.axes.get ax).state ≠ .idle) : startAxis ax s = (s, .refuse .axisState) := by
  simp [startAxis, hi]

theorem startAxis_of_lineFault (hi : (s.axes.get ax).state = .idle) (hf : (s.axes.get ax).lineFault = true) :
    startAxis ax s = (s, .refuse .lineFault) := by
  simp [startAxis, hi, hf]

theorem startAxis_of_outside (hi : (s.axes.get ax).state = .idle) (hf : (s.axes.get ax).lineFault = false)
    (hw : (s.axes.get ax).inWindow (s.axes.get ax).offset = false) : startAxis ax s = (s, outOfRange 2) := by
  simp [startAxis, hi, hf, hw]

theorem startAxis_accepted (hi : (s.axes.get ax).state = .idle) (hf : (s.axes.get ax).lineFault = false)
    (hw : (s.axes.get ax).inWindow (s.axes.get ax).offset = true) :
    startAxis ax s =
      (s.axisStep ax
        ((s.axes.get ax).started.notify (.thaw (s.axes.get ax).offset .start),
          (s.axes.get ax).started.stateEvents ax s.timebase .start),
        .ok (signedBytes (s.axes.get ax).offset)) := by
  simp [startAxis, hi, hf, hw]

theorem stopAxis_of_idle (hi : (s.axes.get ax).state = .idle) : stopAxis ax s = (s, .ok []) := by
  simp [stopAxis, hi]

theorem stopAxis_of_not_idle (hi : (s.axes.get ax).state ≠ .idle) :
    stopAxis ax s =
      (s.axisStep ax
        (AxisUnit.notify (.freeze (s.axes.get ax).position .stop) { s.axes.get ax with state := .idle },
          (s.axes.get ax).abortedEvents ax s.timebase .stop .idle ++
            AxisUnit.stateEvents ax s.timebase .stop { s.axes.get ax with state := .idle }),
        .ok []) := by
  simp [stopAxis, hi]

theorem resumeAxis_of_not_lost (hl : (s.axes.get ax).state.isLost = false) :
    resumeAxis ax s = (s, .refuse .axisState) := by
  simp [resumeAxis, hl]

theorem resumeAxis_of_lineFault (hl : (s.axes.get ax).state.isLost = true) (hf : (s.axes.get ax).lineFault = true) :
    resumeAxis ax s = (s, .refuse .lineFault) := by
  simp [resumeAxis, hl, hf]

theorem resumeAxis_of_outside (hl : (s.axes.get ax).state.isLost = true) (hf : (s.axes.get ax).lineFault = false)
    (hr : (s.axes.get ax).inRange = false) : resumeAxis ax s = (s, outOfRange 2) := by
  simp [resumeAxis, hl, hf, hr]

theorem resumeAxis_accepted (hl : (s.axes.get ax).state.isLost = true) (hf : (s.axes.get ax).lineFault = false)
    (hr : (s.axes.get ax).inRange = true) :
    resumeAxis ax s =
      (s.axisStep ax
        (AxisUnit.notify (.thaw (s.axes.get ax).position .resume) { s.axes.get ax with state := .free },
          AxisUnit.stateEvents ax s.timebase .resume { s.axes.get ax with state := .free }),
        .ok (signedBytes (s.axes.get ax).position)) := by
  simp [resumeAxis, hl, hf, hr]

/-- R14: the states in which SET OFFSET is checked against the travel window. -/
def AxisState.offsetChecked (st : AxisState) : Prop := st = .free ∨ st = .aligned

/-- R14: the states in which SET OFFSET is applied without a check. -/
def AxisState.offsetUnchecked (st : AxisState) : Prop := st = .idle ∨ ∃ c, st = .lost c

variable {off : Int}

theorem setOffset_of_badOffset (ho : offsetInRange off = false) : setOffset ax off s = (s, .refuse .badArgument) := by
  simp [setOffset, ho]

theorem setOffset_of_armed {a : Alignment} (ho : offsetInRange off = true) (hs : (s.axes.get ax).state = .armed a) :
    setOffset ax off s = (s, ⟨.axisBusy, [finCode a.aligner]⟩) := by
  simp [setOffset, ho, hs]

theorem setOffset_unchecked (ho : offsetInRange off = true) (hs : (s.axes.get ax).state.offsetUnchecked) :
    setOffset ax off s =
      (s.setAxis ax { s.axes.get ax with offset := off }, .ok (signedBytes ((s.axes.get ax).count + off))) := by
  obtain hs | ⟨c, hs⟩ := hs <;> simp [setOffset, ho, hs, AxisUnit.position]

theorem setOffset_of_outside (ho : offsetInRange off = true) (hs : (s.axes.get ax).state.offsetChecked)
    (hw : (s.axes.get ax).inWindow ((s.axes.get ax).count + off) = false) :
    setOffset ax off s = (s, outOfRange 2) := by
  obtain hs | hs := hs <;> simp only [setOffset, ho, hs, Bool.not_true, Bool.false_eq_true, if_false] <;>
    exact if_pos (congrArg not hw)

theorem setOffset_checked (ho : offsetInRange off = true) (hs : (s.axes.get ax).state.offsetChecked)
    (hw : (s.axes.get ax).inWindow ((s.axes.get ax).count + off) = true) :
    setOffset ax off s =
      (s.setAxis ax
        (AxisUnit.notify (.rebase ((s.axes.get ax).count + off) .offset) { s.axes.get ax with offset := off }),
        .ok (signedBytes ((s.axes.get ax).count + off))) := by
  obtain hs | hs := hs <;> simp only [setOffset, ho, hs, Bool.not_true, Bool.false_eq_true, if_false] <;>
    exact if_neg (ne_true_of_eq_false (congrArg not hw))

end

/-- R14: SET OFFSET is one claim in FREE and in ALIGNED: refused outside the window, or applied with a rebase notice. -/
theorem claim_setOffset_checked {s : State} {p : Port} {ax : Axis} {off : Int} {aw : Bool} {rest : List Dispatch}
    (h : s.Flying p (.setOffset ax off) aw rest) (ho : offsetInRange off = true)
    (hs : (s.axes.get ax).state.offsetChecked) :
    let u := s.axes.get ax
    let x := u.count + off
    claim p (.setOffset ax off) (setOffset ax off) s = .next (
      if x < u.config.low ∨ u.config.high < x then s.answered p aw rest ⟨.outOfRange, [2]⟩
      else
        { s.answered p aw rest ⟨.ok, signedBytes x⟩ with
          axes := s.axes.put ax { u with offset := off, outbox := u.outbox ++ [.rebase x .offset] } }) := by
  intro u x
  split_ifs with hw
  · exact claim_of_kept h (setOffset_of_outside ho hs ((u.inWindow_eq_false_iff x).2 hw))
  · rw [← u.inWindow_eq_false_iff, Bool.not_eq_false] at hw
    exact claim_of_setAxis h (setOffset_checked ho hs hw)

/-! ### The commands as claims -/

theorem exec_start (p : Port) (ax : Axis) (s : State) :
    exec (.start p ax) s = claim p (.start ax) (startAxis ax) s := rfl

theorem exec_stop (p : Port) (ax : Axis) (s : State) :
    exec (.stop p ax) s = claim p (.stop ax) (stopAxis ax) s := rfl

theorem exec_resume (p : Port) (ax : Axis) (s : State) :
    exec (.resume p ax) s = claim p (.resume ax) (resumeAxis ax) s := rfl

theorem exec_setOffset (p : Port) (ax : Axis) (off : Int) (s : State) :
    exec (.setOffset p ax off) s = claim p (.setOffset ax off) (setOffset ax off) s := rfl

end Sys2Proof.Machine

namespace Sys2Proof.AxisRequests

open Machine

/-! ### The statements -/

/-- Settles O25: the four cases of R11 in the order of its tests. -/
theorem start : Obligations.Start := by
  intro s p ax aw rest h u
  rw [exec_start]
  split_ifs with hi hf hw
  · exact claim_of_kept h (startAxis_of_not_idle hi)
  · exact claim_of_kept h (startAxis_of_lineFault (not_not.1 hi) hf)
  · exact claim_of_kept h
      (startAxis_of_outside (not_not.1 hi) (eq_false_of_ne_true hf) ((u.inWindow_eq_false_iff _).2 hw))
  · rw [← u.inWindow_eq_false_iff, Bool.not_eq_false] at hw
    exact claim_of_axisStep h (startAxis_accepted (not_not.1 hi) (eq_false_of_ne_true hf) hw) fun q => by
      rw [eventsFor_stateEvents, AxisUnit.started_position]; rfl

/-- Settles O26: outside IDLE the events are those of the alignment's end, which only ARMED has (R35), and then
those of the new state. -/
theorem stop : Obligations.Stop := by
  intro s p ax aw rest h u x
  rw [exec_stop]
  split_ifs with hi
  · exact claim_of_kept h (stopAxis_of_idle hi)
  · refine claim_of_axisStep h (stopAxis_of_not_idle hi) fun q => ?_
    rw [eventsFor_append, eventsFor_stateEvents]
    change eventsFor q (u.abortedEvents ax s.timebase .stop .idle) ++ _ = _
    congr 1
    cases hs : u.state with
    | armed a => rw [AxisUnit.abortedEvents_armed hs, eventsFor_cons, eventsFor_nil, List.append_nil]; rfl
    | idle | free | aligned | lost => rw [AxisUnit.abortedEvents_not_armed (by simp [hs])]; rfl

/-- Settles O27: only LOST is resumed; there the tests of R13 come in their order. -/
theorem resume : Obligations.Resume := by
  intro s p ax aw rest h u x
  rw [exec_resume]
  cases hs : u.state with
  | lost c =>
    have hl : u.state.isLost = true := by rw [hs]; rfl
    dsimp only
    split_ifs with hf hr
    · exact claim_of_kept h (resumeAxis_of_lineFault hl hf)
    · exact claim_of_kept h (resumeAxis_of_outside hl (eq_false_of_ne_true hf) (u.inRange_eq_false_iff.2 hr))
    · have hin : u.inRange = true := eq_true_of_ne_false fun hout => hr (u.inRange_eq_false_iff.1 hout)
      exact claim_of_axisStep h (resumeAxis_accepted hl (eq_false_of_ne_true hf) hin) fun q =>
        eventsFor_stateEvents ..
  | idle | free | armed | aligned =>
    exact claim_of_kept h (resumeAxis_of_not_lost (show u.state.isLost = false by rw [hs]; rfl))

/-- Settles O28: the offset range first, in every state; then the cases of R14 by the axis state. -/
theorem setOffset : Obligations.SetOffset := by
  intro s p ax off aw rest h u x
  rw [exec_setOffset]
  by_cases ho : off < -1073741824 ∨ 1073741823 < off
  · rw [if_pos ho]
    exact claim_of_kept h (setOffset_of_badOffset ((offsetInRange_eq_false_iff off).2 ho))
  · rw [if_neg ho]
    rw [← offsetInRange_eq_false_iff, Bool.not_eq_false] at ho
    split
    case h_1 a hs => exact claim_of_kept h (setOffset_of_armed ho hs)
    case h_2 hs => exact claim_of_setAxis h (setOffset_unchecked ho (.inl hs))
    case h_3 c hs => exact claim_of_setAxis h (setOffset_unchecked ho (.inr ⟨c, hs⟩))
    case h_4 hs => exact claim_setOffset_checked h ho (.inl hs)
    case h_5 hs => exact claim_setOffset_checked h ho (.inr hs)

end Sys2Proof.AxisRequests
end

section
/-!
PROOFS. Alignment and index supervision of 02: what the work of CANCEL ALIGN does, one equation per case of R36, and from
these the statement of the request.
-/

namespace Sys2Proof.Machine

/-! ### The work of CANCEL ALIGN, one equation per case of R36 -/

section

variable {s : State} {ax : Axis} {p : Port}

theorem cancelAlign_of_not_armed (hs : ∀ a, (s.axes.get ax).state ≠ .armed a) :
    cancelAlign p ax s = (s, .refuse .axisState) := by
  unfold cancelAlign
  dsimp only
  split
  · next a ha => exact absurd ha (hs a)
  · rfl

theorem cancelAlign_of_other {a : Alignment} (hs : (s.axes.get ax).state = .armed a) (hp : a.aligner ≠ p) :
    cancelAlign p ax s = (s, .refuse .notAligner) := by
  simp [cancelAlign, hs, hp]

theorem cancelAlign_accepted {a : Alignment} (hs : (s.axes.get ax).state = .armed a) (hp : a.aligner = p) :
    cancelAlign p ax s =
      (s.axisStep ax
        ({ s.axes.get ax with state := .free },
          AxisUnit.stateEvents ax s.timebase .cancel { s.axes.get ax with state := .free }),
        .ok (signedBytes (s.axes.get ax).position)) := by
  simp [cancelAlign, hs, hp]

end

theorem exec_cancelAlign (p : Port) (ax : Axis) (s : State) :
    exec (.cancelAlign p ax) s = claim p (.cancelAlign ax) (cancelAlign p ax) s := rfl

end Sys2Proof.Machine

namespace Sys2Proof.AlignRequests

open Machine

/-- Settles O30: only ARMED has an alignment to cancel; there the aligner, and no other port, ends it. -/
theorem cancelAlign : Obligations.CancelAlign := by
  intro s p ax aw rest h u x
  rw [exec_cancelAlign]
  cases hs : u.state with
  | armed a =>
    dsimp only
    split_ifs with hp
    · exact claim_of_kept h (cancelAlign_of_other hs hp)
    · exact claim_of_axisStep h (cancelAlign_accepted hs (not_not.1 hp)) fun q => eventsFor_stateEvents ..
  | idle | free | aligned | lost =>
    exact claim_of_kept h (cancelAlign_of_not_armed fun a ha => AxisState.noConfusion (hs.symm.trans ha))

end Sys2Proof.AlignRequests
end

section
/-!
PROOFS. The zone table of 03: subscriptions to axes and zones (R19, R65, R66) and DELETE ZONE (R51). First what is shared:
a claim that stores a slot or a whole zone table, the events a zone tells, the first output that uses a zone, and an output
map without one zone. Then what each request's work does, one equation per case of its rule, and from these the two
statements of the family.
-/

namespace Sys2Proof.Machine

/-! ### A claim on the zone table whose work is known -/

section

variable {s : State} {p : Port} {r : Request} {aw : Bool} {rest : List Dispatch} {work : State → State × Answer}
  {a : Answer}

/-- Work that replaces one slot of the zone table. -/
theorem claim_of_setSlot {z : ZoneId} {sl : Slot} (h : s.Flying p r aw rest)
    (hw : work (s.withInFlight p rest) = ((s.withInFlight p rest).setSlot z sl, a)) :
    claim p r work s = .next { s.answered p aw rest a with zones := s.zones.put z sl } := by
  rw [claim_next h work (by rw [hw]; rfl), hw]; rfl

/-- Work that stores a zone table, then output records with their values handed to the drivers, then hands events over
(R74, R98). -/
theorem claim_of_commitZones {zones : Table 32 Slot} {outs outs' : Table 8 Output} {es : List (Port × Event)}
    {told : Port → List Event} (h : s.Flying p r aw rest)
    (hw : work (s.withInFlight p rest) =
      ((State.commitOutputs outs { s.withInFlight p rest with zones := zones }).hand .zoneController es, a))
    (ho : outs = outs') (ht : ∀ q, eventsFor q es = told q) :
    claim p r work s =
      .next { s.answered p aw rest a with
                zones := zones, outputs := outs', drivers := s.driven outs', queues := s.told .zoneController told } := by
  subst ho
  obtain rfl : (fun q => eventsFor q es) = told := funext ht
  rw [claim_next h work (by rw [hw]; rfl), hw]; rfl

end

/-! ### The events of a zone, port by port (R67) -/

/-- R59, R67: a port is told a zone's event exactly when it has an entry whose filter admits it. -/
theorem Zone.eventsFor_tell (q : Port) (zn : Zone) (e : Event) :
    eventsFor q (zn.tell e) = if (zn.subscribers.get q).any fun f => admits f e then [e] else [] := by
  rw [Zone.tell, eventsFor_having]
  cases zn.subscribers.get q <;> rfl

/-- R67: the filter selects among crossings alone, so that every filter admits ZONE_REMOVED. -/
theorem admits_zoneRemoved (f : Filter) (cause : Cause) (z : ZoneId) (g : BitVec 16) (m : Membership) (x : Int)
    (now : Word) : admits f (zoneEvent .zoneRemoved cause z g m x now) = true := by
  cases f <;> rfl

theorem eventsFor_removedEvents (q : Port) (zn : Zone) (z : ZoneId) (g : BitVec 16) (cause : Cause) (last : Int)
    (now : Word) :
    eventsFor q (removedEvents zn z g cause last now) =
      if (zn.subscribers.get q).isSome then [zoneEvent .zoneRemoved cause z g zn.membership last now] else [] := by
  rw [removedEvents, Zone.eventsFor_tell]
  cases zn.subscribers.get q with
  | none => rfl
  | some f => rw [Option.any_some, admits_zoneRemoved]; rfl

/-- R51: the removal is told to every subscriber but the requester. -/
theorem eventsFor_removedEvents_others (p q : Port) (zn : Zone) (z : ZoneId) (g : BitVec 16) (cause : Cause) (last : Int)
    (now : Word) :
    eventsFor q ((removedEvents zn z g cause last now).filter fun e => e.1 ≠ p) =
      if (zn.subscribers.get q).isSome ∧ q ≠ p then [zoneEvent .zoneRemoved cause z g zn.membership last now] else [] := by
  rw [eventsFor_filter q (fun r => r ≠ p), eventsFor_removedEvents, ← ite_and]
  simp only [decide_eq_true_eq, and_comm]

/-! ### The first user of a zone (R50) -/

theorem Output.uses_eq (p : Port) (z : ZoneId) (out : Output) :
    out.uses p z = (out.map.getLsbD z.val && out.lease.any fun l => l.holder ≠ p) := by
  unfold Output.uses Output.maps
  cases out.lease with
  | none => rfl
  | some l => rw [Option.any_some, decide_not]; rfl

theorem firstUser_eq_find? (outs : Table 8 Output) (p : Port) (z : ZoneId) :
    firstUser outs p z = (List.finRange 8).find? fun o =>
      (outs.get o).map.getLsbD z.val && (outs.get o).lease.any fun l => l.holder ≠ p := by
  simp only [firstUser, Table.having, List.head?_filter, Output.uses_eq]

/-! ### An output map without one zone (R51) -/

theorem getLsbD_zoneBit (z : ZoneId) (i : Nat) : (zoneBit z).getLsbD i = decide (z.val = i) := by
  have hz : z.val < 32 := z.isLt
  rw [zoneBit, BitVec.getLsbD_twoPow, decide_eq_true hz, Bool.true_and]

theorem and_zoneBit_eq_zero_iff (map : BitVec 32) (z : ZoneId) : map &&& zoneBit z = 0 ↔ map.getLsbD z.val = false := by
  constructor
  · intro h
    have hbit : (map &&& zoneBit z).getLsbD z.val = false := by rw [h]; exact BitVec.getLsbD_zero
    rwa [BitVec.getLsbD_and, getLsbD_zoneBit, decide_eq_true rfl, Bool.and_true] at hbit
  · intro h
    rw [zoneBit, BitVec.and_twoPow, h]; rfl

theorem and_not_zoneBit_of_absent {map : BitVec 32} {z : ZoneId} (h : map.getLsbD z.val = false) :
    map &&& ~~~zoneBit z = map := by
  refine BitVec.eq_of_getLsbD_eq fun i hi => ?_
  rw [BitVec.getLsbD_and, BitVec.getLsbD_not, getLsbD_zoneBit]
  by_cases hz : z.val = i
  · rw [← hz, h, Bool.false_and]
  · simp [hz, hi]

/-- R51: an output that held the zone loses it and is recomputed; another is left as it is. -/
theorem deletedOutputs_zoneBit (zones : Table 32 Slot) (z : ZoneId) (outs : Table 8 Output) :
    deletedOutputs zones (zoneBit z) outs = outs.mapIdx fun _ out =>
      if out.map.getLsbD z.val then Output.recompute zones { out with map := out.map &&& ~~~zoneBit z } else out := by
  rw [deletedOutputs, unmapped, Table.mapIdx_mapIdx]
  refine Table.mapIdx_congr fun o => ?_
  simp only [and_zoneBit_eq_zero_iff]
  cases hm : (outs.get o).map.getLsbD z.val with
  | false => simp [and_not_zoneBit_of_absent hm]
  | true => simp

/-! ### The work of the axis subscriptions (R19) -/

section

variable {s : State} {p : Port} {ax : Axis}

theorem unsubscribeAxis_of_absent (hp : (s.axes.get ax).subscribers.get p = false) :
    unsubscribeAxis p ax s = (s, .refuse .notSubscribed) := by
  simp [unsubscribeAxis, hp]

theorem unsubscribeAxis_of_present (hp : (s.axes.get ax).subscribers.get p = true) :
    unsubscribeAxis p ax s =
      (s.setAxis ax { s.axes.get ax with subscribers := (s.axes.get ax).subscribers.put p false }, .ok []) := by
  simp [unsubscribeAxis, hp]

end

/-! ### The work of the zone subscriptions, one equation per case of R65 and R66 -/

section

variable {s : State} {p : Port} {z : ZoneId} {g : BitVec 16} {f : Filter} {zn : Zone}

theorem subscribeZone_of_empty (hz : (s.zones.get z).zone = none) :
    subscribeZone p z g f s = (s, .refuse .noSuchZone) := by
  simp [subscribeZone, hz]

theorem subscribeZone_of_stale (hz : (s.zones.get z).zone = some zn) (hg : g ≠ (s.zones.get z).generation) :
    subscribeZone p z g f s = (s, ⟨.generationMismatch, le16 (s.zones.get z).generation⟩) := by
  simp [subscribeZone, hz, hg]

theorem subscribeZone_accepted (hz : (s.zones.get z).zone = some zn) (hg : g = (s.zones.get z).generation) :
    subscribeZone p z g f s =
      (s.setSlot z { s.zones.get z with zone := some { zn with subscribers := zn.subscribers.put p (some f) } },
        .ok ([zn.membership.code, boolCode zn.frozen] ++ le16 (s.zones.get z).generation)) := by
  simp [subscribeZone, hz, hg]

theorem unsubscribeZone_of_empty (hz : (s.zones.get z).zone = none) :
    unsubscribeZone p z s = (s, .refuse .noSuchZone) := by
  simp [unsubscribeZone, hz]

theorem unsubscribeZone_of_absent (hz : (s.zones.get z).zone = some zn) (hp : zn.subscribers.get p = none) :
    unsubscribeZone p z s = (s, .refuse .notSubscribed) := by
  simp [unsubscribeZone, hz, hp]

theorem unsubscribeZone_accepted (hz : (s.zones.get z).zone = some zn) (hp : zn.subscribers.get p ≠ none) :
    unsubscribeZone p z s =
      (s.setSlot z { s.zones.get z with zone := some { zn with subscribers := zn.subscribers.put p none } }, .ok []) := by
  simp [unsubscribeZone, hz, hp]

end

/-! ### The work of DELETE ZONE, one equation per case of R51 -/

section

variable {s : State} {p : Port} {z : ZoneId} {g : BitVec 16} {zn : Zone}

theorem deleteZone_of_empty (hz : (s.zones.get z).zone = none) : deleteZone p z g s = (s, .refuse .noSuchZone) := by
  simp [deleteZone, hz]

theorem deleteZone_of_other (hz : (s.zones.get z).zone = some zn) (ha : zn.author ≠ p) :
    deleteZone p z g s = (s, .refuse .notAuthor) := by
  simp [deleteZone, hz, ha]

theorem deleteZone_of_stale (hz : (s.zones.get z).zone = some zn) (ha : zn.author = p)
    (hg : g ≠ (s.zones.get z).generation) :
    deleteZone p z g s = (s, ⟨.generationMismatch, le16 (s.zones.get z).generation⟩) := by
  simp [deleteZone, hz, ha, hg]

theorem deleteZone_of_used {o : Line} (hz : (s.zones.get z).zone = some zn) (ha : zn.author = p)
    (hg : g = (s.zones.get z).generation) (hu : firstUser s.outputs p z = some o) :
    deleteZone p z g s = (s, zoneInUse s.outputs o) := by
  simp [deleteZone, hz, ha, hg, hu]

theorem deleteZone_accepted (hz : (s.zones.get z).zone = some zn) (ha : zn.author = p)
    (hg : g = (s.zones.get z).generation) (hu : firstUser s.outputs p z = none) :
    let zones := s.zones.put z { s.zones.get z with zone := none }
    deleteZone p z g s =
      ((State.commitOutputs (deletedOutputs zones (zoneBit z) s.outputs) { s with zones := zones }).hand .zoneController
          ((removedEvents zn z (s.zones.get z).generation .edit (s.views.get zn.axis).last s.timebase).filter
            fun e => e.1 ≠ p),
        .ok (le16 (s.zones.get z).generation)) := by
  simp [deleteZone, hz, ha, hg, hu]

end

/-! ### The commands as claims -/

theorem exec_subscribeAxis (p : Port) (ax : Axis) (s : State) :
    exec (.subscribeAxis p ax) s = claim p (.subscribeAxis ax) (subscribeAxis p ax) s := rfl

theorem exec_unsubscribeAxis (p : Port) (ax : Axis) (s : State) :
    exec (.unsubscribeAxis p ax) s = claim p (.unsubscribeAxis ax) (unsubscribeAxis p ax) s := rfl

theorem exec_subscribeZone (p : Port) (z : ZoneId) (g : BitVec 16) (f : Filter) (s : State) :
    exec (.subscribeZone p z g f) s = claim p (.subscribeZone z g f) (subscribeZone p z g f) s := rfl

theorem exec_unsubscribeZone (p : Port) (z : ZoneId) (s : State) :
    exec (.unsubscribeZone p z) s = claim p (.unsubscribeZone z) (unsubscribeZone p z) s := rfl

theorem exec_deleteZone (p : Port) (z : ZoneId) (g : BitVec 16) (s : State) :
    exec (.deleteZone p z g) s = claim p (.deleteZone z g) (deleteZone p z g) s := rfl

end Sys2Proof.Machine

namespace Sys2Proof.ZoneTable

open Machine

/-- Settles O34: the four requests one by one, each by the cases of its rule (R19, R65, R66). -/
theorem subscriptions : Obligations.Subscriptions := by
  intro s p aw rest
  refine ⟨fun ax h => ?_, fun ax h => ?_, fun z g f h => ?_, fun z h => ?_⟩
  case refine_1 => exact (exec_subscribeAxis p ax s).trans (claim_of_setAxis h rfl)
  case refine_2 =>
    intro u
    rw [exec_unsubscribeAxis]
    split_ifs with hp
    · exact claim_of_kept h (unsubscribeAxis_of_absent hp)
    · exact claim_of_setAxis h (unsubscribeAxis_of_present (eq_true_of_ne_false hp))
  case refine_3 =>
    intro sl
    rw [exec_subscribeZone]
    cases hz : sl.zone with
    | none => exact claim_of_kept h (subscribeZone_of_empty hz)
    | some zn =>
      dsimp only
      split_ifs with hg
      · exact claim_of_kept h (subscribeZone_of_stale hz hg)
      · exact claim_of_setSlot h (subscribeZone_accepted hz (not_not.1 hg))
  case refine_4 =>
    intro sl
    rw [exec_unsubscribeZone]
    cases hz : sl.zone with
    | none => exact claim_of_kept h (unsubscribeZone_of_empty hz)
    | some zn =>
      dsimp only
      split_ifs with hp
      · exact claim_of_kept h (unsubscribeZone_of_absent hz hp)
      · exact claim_of_setSlot h (unsubscribeZone_accepted hz hp)

/-- Settles O39: the tests of R51 in their order; past them the claim stores the table without the zone, and its outputs
and events are those of `deletedOutputs_zoneBit` and `eventsFor_removedEvents_others`. -/
theorem deleteZone : Obligations.DeleteZone := by
  intro s p z g aw rest h sl run inUse zones outs
  have hrun : run = claim p (.deleteZone z g) (Machine.deleteZone p z g) s := exec_deleteZone p z g s
  rw [hrun]
  refine ⟨fun hz => claim_of_kept h (deleteZone_of_empty hz), fun zn hz => ?_⟩
  split_ifs with ha hg
  · exact claim_of_kept h (deleteZone_of_other hz ha)
  · exact claim_of_kept h (deleteZone_of_stale hz (not_not.1 ha) hg)
  · have hfirst : firstUser s.outputs p z = (List.finRange 8).find? inUse := firstUser_eq_find? s.outputs p z
    cases hu : (List.finRange 8).find? inUse with
    | some o => exact claim_of_kept h (deleteZone_of_used hz (not_not.1 ha) (not_not.1 hg) (hfirst.trans hu))
    | none =>
      exact claim_of_commitZones h (deleteZone_accepted hz (not_not.1 ha) (not_not.1 hg) (hfirst.trans hu))
        (deletedOutputs_zoneBit zones z s.outputs) fun q => eventsFor_removedEvents_others p q zn ..

end Sys2Proof.ZoneTable
end

section
/-!
PROOFS. Output lines and leases of 04: RENEW LEASE (R80), RELEASE OUTPUT (R81, R82) and CANCEL WAIT (R84). First what is
shared: the conditions the requests test, the end of a lease (R82) with its events, and a claim that replaces an output
record or ends a lease. Then what each request's work does, one equation per case of its rule, and from these the statement.
-/

namespace Sys2Proof.Machine

/-! ### The conditions of R78, R81 and R84 -/

theorem durationOk_eq_false_iff (d : Nat) : durationOk d = false ↔ d < 10 ∨ 10000 < d := by
  simp only [durationOk, Bool.and_eq_false_iff, decide_eq_false_iff_not, not_le]; rfl

theorem Output.heldBy_eq_any (p : Port) (out : Output) : out.heldBy p = out.lease.any fun l => l.holder = p := by
  unfold Output.heldBy
  cases out.lease <;> rfl

/-- R84: a port has no place in a wait queue exactly when it is none of the waiters. -/
theorem placeOf_isNone_iff (p : Port) (ws : List Waiter) : (placeOf p ws).isNone = true ↔ p ∉ ws.map Waiter.port := by
  rw [placeOf, Option.isNone_map, Option.isNone_iff_eq_none, List.findIdx?_eq_none_iff]
  simp

/-! ### The end of a lease (R82) -/

/-- R82: the head of the wait queue, if there is one, becomes holder, and the force is NONE. -/
theorem Output.endLease_eq (out : Output) :
    out.endLease =
      { out with
        lease := out.waiters.head?.map fun w => newLease w.port w.duration
        waiters := out.waiters.tail
        force := .none } := by
  unfold Output.endLease
  split <;> simp [*]

/-- R81: the answer of RELEASE OUTPUT names the new holder, or none. -/
theorem Output.optPortCode_endLease (out : Output) :
    optPortCode (out.endLease.lease.map Lease.holder) = (out.waiters.head?.map fun w => finCode w.port).getD 0xFF := by
  rw [Output.endLease_eq]
  cases out.waiters.head? <;> rfl

/-- R82: LEASE_LOST is for expiry alone, so any other end of a lease makes at most the LEASE_GRANTED to the new holder. -/
theorem Output.endEvents_of_not_expiry (o : Line) {cause : Cause} (hc : cause ≠ .expiry) (now : Word) (out : Output) :
    out.endEvents o cause now =
      out.waiters.head?.elim [] fun w => [(w.port, leaseEvent .leaseGranted cause o w.duration now)] := by
  unfold Output.endEvents
  cases out.lease with
  | none | some => cases out.waiters <;> simp [hc]

theorem Output.eventsFor_endEvents (q : Port) (o : Line) {cause : Cause} (hc : cause ≠ .expiry) (now : Word)
    (out : Output) :
    eventsFor q (out.endEvents o cause now) = out.waiters.head?.elim [] fun w =>
      if w.port = q then [leaseEvent .leaseGranted cause o w.duration now] else [] := by
  rw [Output.endEvents_of_not_expiry o hc]
  cases out.waiters.head? with
  | none => rfl
  | some w => rw [Option.elim_some, eventsFor_cons, eventsFor_nil, List.append_nil]; rfl

/-! ### A claim on one output whose work is known -/

section

variable {s : State} {p : Port} {r : Request} {aw : Bool} {rest : List Dispatch} {work : State → State × Answer}
  {a : Answer} {o : Line}

/-- Work that replaces one output record and leaves its requested value. -/
theorem claim_of_keepOutput {out : Output} (h : s.Flying p r aw rest)
    (hw : work (s.withInFlight p rest) = ((s.withInFlight p rest).keepOutput o out, a)) :
    claim p r work s = .next { s.answered p aw rest a with outputs := s.outputs.put o out } := by
  rw [claim_next h work (by rw [hw]; rfl), hw]; rfl

/-- Work that ends the lease of an output: the record after R82, recomputed, its values handed to the driver, and each
port handed the events meant for it. -/
theorem claim_of_endLease {cause : Cause} {ended : Output} {told : Port → List Event} (h : s.Flying p r aw rest)
    (hw : work (s.withInFlight p rest) = ((s.withInFlight p rest).endLease o cause, a))
    (ho : (s.outputs.get o).endLease = ended)
    (ht : ∀ q, eventsFor q ((s.outputs.get o).endEvents o cause s.timebase) = told q) :
    let outs := s.outputs.put o (ended.recompute s.zones)
    claim p r work s =
      .next { s.answered p aw rest a with
                outputs := outs, drivers := s.driven outs, queues := s.told .zoneController told } := by
  subst ho
  obtain rfl : (fun q => eventsFor q ((s.outputs.get o).endEvents o cause s.timebase)) = told := funext ht
  rw [claim_next h work (by rw [hw]; rfl), hw]; rfl

end

/-! ### The work of each request, one equation per case of its rule (R80, R81, R84) -/

section

variable {s : State} {p : Port} {o : Line} {duration : BitVec 16} {l : Lease}

theorem renewLease_of_unheld (hl : (s.outputs.get o).lease = none) :
    renewLease p o duration s = (s, .refuse .notHolder) := by
  simp [renewLease, hl]

theorem renewLease_of_other (hl : (s.outputs.get o).lease = some l) (hp : l.holder ≠ p) :
    renewLease p o duration s = (s, .refuse .notHolder) := by
  simp [renewLease, hl, hp]

theorem renewLease_of_badDuration (hl : (s.outputs.get o).lease = some l) (hp : l.holder = p)
    (hd : duration ≠ 0 ∧ (duration.toNat < 10 ∨ 10000 < duration.toNat)) :
    renewLease p o duration s = (s, .refuse .badArgument) := by
  rw [← durationOk_eq_false_iff] at hd
  simp only [renewLease, hl, hp, ne_eq, not_true_eq_false, if_false, Bool.not_eq_true']
  exact if_pos hd

theorem renewLease_accepted (hl : (s.outputs.get o).lease = some l) (hp : l.holder = p)
    (hd : ¬(duration ≠ 0 ∧ (duration.toNat < 10 ∨ 10000 < duration.toNat))) :
    let d := if duration = 0 then l.duration else duration.toNat
    renewLease p o duration s =
      (s.keepOutput o { s.outputs.get o with lease := some (newLease p d) }, .ok (durationBytes d)) := by
  rw [← durationOk_eq_false_iff] at hd
  simp only [renewLease, hl, hp, ne_eq, not_true_eq_false, if_false, Bool.not_eq_true']
  exact if_neg hd

theorem releaseOutput_of_other (hp : (s.outputs.get o).heldBy p = false) :
    releaseOutput p o s = (s, .refuse .notHolder) := by
  simp [releaseOutput, hp]

theorem releaseOutput_accepted (hp : (s.outputs.get o).heldBy p = true) :
    releaseOutput p o s =
      (s.endLease o .cancel, .ok [((s.outputs.get o).waiters.head?.map fun w => finCode w.port).getD 0xFF]) := by
  simp [releaseOutput, hp, Output.optPortCode_endLease]

theorem cancelWait_of_absent (hp : p ∉ (s.outputs.get o).waiters.map Waiter.port) :
    cancelWait p o s = (s, .refuse .notWaiting) :=
  if_pos ((placeOf_isNone_iff p _).2 hp)

theorem cancelWait_accepted (hp : p ∈ (s.outputs.get o).waiters.map Waiter.port) :
    cancelWait p o s =
      (s.keepOutput o
        { s.outputs.get o with waiters := (s.outputs.get o).waiters.filter fun w => w.port ≠ p }, .ok []) :=
  if_neg fun hn => (placeOf_isNone_iff p _).1 hn hp

end

/-! ### The commands as claims -/

theorem exec_renewLease (p : Port) (o : Line) (duration : BitVec 16) (s : State) :
    exec (.renewLease p o duration) s = claim p (.renewLease o duration) (renewLease p o duration) s := rfl

theorem exec_releaseOutput (p : Port) (o : Line) (s : State) :
    exec (.releaseOutput p o) s = claim p (.releaseOutput o) (releaseOutput p o) s := rfl

theorem exec_cancelWait (p : Port) (o : Line) (s : State) :
    exec (.cancelWait p o) s = claim p (.cancelWait o) (cancelWait p o) s := rfl

end Sys2Proof.Machine

namespace Sys2Proof.LeaseRequests

open Machine

/-- Settles O42: the three requests one by one, each by the cases of its rule; past the test of the holder, the record,
the answer and the events of RELEASE OUTPUT are those of the end of a lease (R82). -/
theorem renewReleaseCancelWait : Obligations.RenewReleaseCancelWait := by
  intro s p o aw rest out holds
  refine ⟨fun duration h => ?renew, fun h => ?release, fun h => ?cancel⟩
  case renew =>
    rw [exec_renewLease]
    cases hl : out.lease with
    | none => exact claim_of_kept h (renewLease_of_unheld hl)
    | some l =>
      dsimp only
      by_cases hp : l.holder ≠ p
      · rw [if_pos hp]
        exact claim_of_kept h (renewLease_of_other hl hp)
      · rw [if_neg hp]
        by_cases hd : duration ≠ 0 ∧ (duration.toNat < 10 ∨ 10000 < duration.toNat)
        · rw [if_pos hd]
          exact claim_of_kept h (renewLease_of_badDuration hl (not_not.1 hp) hd)
        · rw [if_neg hd]
          exact claim_of_keepOutput h (renewLease_accepted hl (not_not.1 hp) hd)
  case release =>
    have hheld : out.heldBy p = holds := Output.heldBy_eq_any p out
    rw [exec_releaseOutput]
    split_ifs with hp
    · exact claim_of_kept h (releaseOutput_of_other (hheld.trans hp))
    · exact claim_of_endLease h (releaseOutput_accepted (hheld.trans (eq_true_of_ne_false hp))) out.endLease_eq
        fun q => out.eventsFor_endEvents q o (by decide) s.timebase
  case cancel =>
    rw [exec_cancelWait]
    split_ifs with hp
    · exact claim_of_keepOutput h (cancelWait_accepted hp)
    · exact claim_of_kept h (cancelWait_of_absent hp)

end Sys2Proof.LeaseRequests
end

section
/-!
PROOFS. Steps: the queue of commands, the microsecond, and how a property of the state that every command keeps is kept by
every step. Then the law of time (R77, R169, R170).
-/

namespace Sys2Proof.Machine

/-! ### A property kept by every step -/

/-- A property that does not look at the commands that wait is kept by every step when every microsecond and every command
keeps it. -/
theorem step_keeps {P : State → Prop} (hpending : ∀ s l, P s → P { s with pending := l })
    (hmicro : ∀ s, P s → P s.microsecond) (hexec : ∀ c s t, P s → exec c s = .next t → P t)
    (s t : State) (h : P s) (hs : step s = .next t) : P t := by
  unfold step at hs
  split at hs
  · injection hs with hs
    exact hs ▸ hmicro s h
  · exact hexec _ _ _ (hpending s _ h) hs

/-- What is said of some outcome of a command is said of its outcome. -/
theorem of_exec_next {c : Instr} {s t : State} {Q : State → Prop} (h : ∃ t, exec c s = .next t ∧ Q t)
    (ht : exec c s = .next t) : Q t := by
  obtain ⟨t', h', hq⟩ := h
  rw [h'] at ht
  injection ht with ht
  exact ht ▸ hq

/-- Taking a request keeps a property that no change of a port unit reaches, when the owner's work keeps it. -/
theorem claim_keeps_of_work {P : State → Prop} (hport : ∀ p u s, P s → P (State.setPort p u s)) {p : Port} {r : Request}
    {work : State → State × Answer} {s t : State} (hwork : ∀ s, P s → P (work s).1) (h : P s)
    (ht : claim p r work s = .next t) : P t := by
  rcases claim_cases p r work s with hc | ⟨aw, rest, _, hc⟩ <;> rw [hc] at ht <;> injection ht with ht <;> subst ht
  · exact h
  · exact hport _ _ _ (hwork _ (hport _ _ _ h))

/-- The ways a microsecond passes: not at all under reset, with the lease tick at its end, or alone. -/
theorem microsecond_cases (s : State) :
    (s.inReset = true ∧ s.microsecond = s) ∨
    (s.inReset = false ∧ 999 ≤ s.sinceTick ∧ s.microsecond = s.tick) ∨
    (s.inReset = false ∧ s.sinceTick < 999 ∧ s.microsecond = { s.passTime 1 with sinceTick := s.sinceTick + 1 }) := by
  unfold State.microsecond
  cases hr : s.inReset with
  | true => exact .inl ⟨rfl, rfl⟩
  | false =>
    by_cases ht : Config.tickSpacing ≤ s.sinceTick + 1
    · exact .inr (.inl ⟨rfl, by unfold Config.tickSpacing at ht; omega, by simp [ht]⟩)
    · exact .inr (.inr ⟨rfl, by unfold Config.tickSpacing at ht; omega, by simp [ht]⟩)

/-! ### The law of time -/

/-- R169: a time that has not run into the end of the start-up period has not wrapped round either. -/
theorem toNat_passed {b : Word} {n : Nat} (h : b.toNat + n < Config.startUpEnd) :
    (b + BitVec.ofNat 32 n).toNat = b.toNat + n := by
  unfold Config.startUpEnd at h
  rw [BitVec.toNat_add, BitVec.toNat_ofNat]
  omega

theorem State.passTime_startUp (s : State) (n : Nat) (h : (s.passTime n).starting = true) :
    (s.passTime n).timebase.toNat < Config.startUpEnd := by
  simp only [State.passTime_starting, Bool.and_eq_true, decide_eq_true_eq] at h
  rw [State.passTime_timebase, toNat_passed h.2]
  exact h.2

theorem State.TimeLaw.tick {s : State} (hr : s.inReset = false) : s.tick.TimeLaw where
  held h := absurd h (by rw [show s.tick.inReset = s.inReset from rfl, hr]; decide)
  startUp h := s.passTime_startUp _ h
  tickAhead := (by decide : 0 < Config.tickSpacing)

theorem State.TimeLaw.microsecond {s : State} (h : s.TimeLaw) : s.microsecond.TimeLaw := by
  rcases microsecond_cases s with ⟨_, hs⟩ | ⟨hr, _, hs⟩ | ⟨hr, hlt, hs⟩ <;> rw [hs]
  · exact h
  · exact State.TimeLaw.tick hr
  · exact
      { held := fun hin => absurd (hr.symm.trans hin) (by decide)
        startUp := s.passTime_startUp 1
        tickAhead := show s.sinceTick + 1 < 1000 by omega }

/-- R169: the start-up period begins, or the part is still held. -/
theorem State.TimeLaw.begin {s : State} (hheld : s.timebase = 0 ∧ s.starting = false) (ht : s.sinceTick < Config.tickSpacing) :
    s.begin.TimeLaw := by
  unfold State.begin
  split
  · exact { held := fun _ => hheld, startUp := fun hs => absurd (hheld.2.symm.trans hs) (by decide), tickAhead := ht }
  · next hr => exact { held := fun hin => absurd hin hr, startUp := fun _ => (by decide : (0 : Word).toNat < Config.startUpEnd), tickAhead := (by decide : 0 < Config.tickSpacing) }

/-- The law of time speaks of the reset, supply and time fields alone. -/
theorem State.TimeLaw.congr {s t : State}
    (h : (t.rstn, t.supplyOk, t.timebase, t.sinceTick, t.starting) =
      (s.rstn, s.supplyOk, s.timebase, s.sinceTick, s.starting)) (hs : s.TimeLaw) : t.TimeLaw := by
  simp only [Prod.mk.injEq] at h
  obtain ⟨hrstn, hsupply, htime, hsince, hstart⟩ := h
  have hin : t.inReset = s.inReset := by rw [State.inReset, hrstn, hsupply]; rfl
  exact
    { held := by rw [hin, htime, hstart]; exact hs.held
      startUp := by rw [htime, hstart]; exact hs.startUp
      tickAhead := by rw [hsince]; exact hs.tickAhead }

theorem State.TimeLaw.exec (c : Instr) (s t : State) (hs : s.TimeLaw) (ht : exec c s = .next t) : t.TimeLaw := by
  cases hc : touchesTime c with
  | false => exact of_exec_next ((keeps_time c s hc).imp fun _ ⟨h1, h2⟩ => ⟨h1, State.TimeLaw.congr h2 hs⟩) ht
  | true =>
    cases c
    case rstnAssert =>
      injection ht with ht; subst ht
      exact { held := fun _ => ⟨rfl, rfl⟩, startUp := nofun, tickAhead := (by decide : 0 < Config.tickSpacing) }
    case supplyBelowRange =>
      injection ht with ht; subst ht
      exact { held := fun _ => ⟨rfl, rfl⟩, startUp := nofun, tickAhead := (by decide : 0 < Config.tickSpacing) }
    case rstnRelease =>
      simp only [Machine.exec, execRstnRelease] at ht
      split at ht <;> injection ht with ht <;> subst ht
      · next hr => exact State.TimeLaw.begin (hs.held (by simp [State.inReset, hr])) hs.tickAhead
      · exact hs
    case supplyReturnToRange =>
      simp only [Machine.exec, execSupplyReturnToRange] at ht
      split at ht <;> injection ht with ht <;> subst ht
      · exact hs
      · next hr => exact State.TimeLaw.begin (hs.held (by simp [State.inReset, hr])) hs.tickAhead
    case startupPeriodEnd =>
      simp only [Machine.exec, execStartupPeriodEnd] at ht
      split at ht <;> injection ht with ht <;> subst ht
      · next hr =>
        simp only [Bool.and_eq_true, Bool.not_eq_true'] at hr
        exact { held := fun hin => absurd (hr.2.symm.trans hin) (by decide), startUp := nofun, tickAhead := (by decide : 0 < Config.tickSpacing) }
      · exact hs
    case leaseTick =>
      simp only [Machine.exec, execLeaseTick] at ht
      split at ht <;> injection ht with ht <;> subst ht
      · exact hs
      · next hr => exact State.TimeLaw.tick (eq_false_of_ne_true hr)
    all_goals exact nomatch (show false = true from hc)

end Sys2Proof.Machine

namespace Sys2Proof.LawsKept

open Machine

/-- Settles O52: time moves in six commands and in the microsecond, and each leaves the law. -/
theorem timeLawKept : Obligations.TimeLawKept :=
  step_keeps (fun _ _ h => ⟨h.held, h.startUp, h.tickAhead⟩) (fun _ h => h.microsecond) State.TimeLaw.exec

end Sys2Proof.LawsKept
end

section
/-!
PROOFS. The table of request codes read backwards (R165, R167): a payload that parses is, byte for byte, the payload of the
request it parses to, and that request is well-formed.
-/

namespace Sys2Proof.Machine

/-- R165: what a payload that parsed under a code says of the code and of the bytes. -/
def ReadsAs (code : Byte) (payload : List Byte) : Asked → Prop
  | .identify => code = 0x01 ∧ payload = []
  | .openSession => code = 0x02 ∧ payload = []
  | .closeSession => code = 0x03 ∧ payload = []
  | .dispatched r => code = r.code ∧ payload = r.payload ∧ r.wellFormed = true

/-- R162, R167: a row that accepts a payload a frame has room for only as `ReadsAs` says. -/
def RequestRow.Faithful (row : RequestRow) : Prop :=
  ∀ l asked, l.length ≤ 59 → row.lengthOk l = true → row.read l = .ok asked → ReadsAs row.code l asked

/-! ### Readers taken apart -/

theorem bind_ok {ε α β : Type} {x : Except ε α} {f : α → Except ε β} {b : β} (h : (x >>= f) = .ok b) :
    ∃ a, x = .ok a ∧ f a = .ok b := by
  cases x with
  | error e => cases h
  | ok a => exact ⟨a, rfl, h⟩

/-- A payload of a known length is the list of its bytes. -/
theorem exactly_bytes {n : Nat} {l : List Byte} (h : exactly n l = true) : l = (List.range n).map (byteAt l) := by
  have hl : l.length = n := by simpa [exactly] using h
  refine List.ext_getElem (by simp [hl]) fun i h1 h2 => ?_
  simp [byteAt, h1]

theorem le16_read16 (l : List Byte) (i : Nat) : le16 (read16 l i) = [byteAt l i, byteAt l (i + 1)] := le16_read ..

theorem le24_read24 (l : List Byte) (i : Nat) : le24 (read24 l i) = [byteAt l i, byteAt l (i + 1), byteAt l (i + 2)] :=
  le24_read ..

theorem le32_read32 (l : List Byte) (i : Nat) :
    le32 (read32 l i) = [byteAt l i, byteAt l (i + 1), byteAt l (i + 2), byteAt l (i + 3)] := le32_read ..

/-- A field that decodes is the code of what it decodes to. -/
theorem field_code {α : Type} {decode : Byte → Option α} {encode : α → Byte}
    (hinv : ∀ {b x}, decode b = some x → encode x = b) {l : List Byte} {i : Nat} {x : α}
    (h : field decode l i = .ok x) : encode x = byteAt l i := hinv (field_inv h)

theorem field_fin {n : Nat} {l : List Byte} {i : Nat} {x : Fin n} (h : field (finOfCode n) l i = .ok x) :
    finCode x = byteAt l i := field_code finOfCode_inv h

/-! ### Rows with one field or none -/

/-- A request without operands. -/
theorem faithful_empty {code : Byte} {a : Asked} (h : ReadsAs code [] a) :
    RequestRow.Faithful ⟨code, exactly 0, fun _ => .ok a⟩ := by
  intro l asked _ hl hr
  injection hr with hr
  rw [exactly_bytes hl, ← hr]
  exact h

/-- A request whose one operand is a field with an encoding of its own. -/
theorem faithful_field {α : Type} {code : Byte} {decode : Byte → Option α} {encode : α → Byte} {r : α → Request}
    (hinv : ∀ {b x}, decode b = some x → encode x = b)
    (h : ∀ x, ReadsAs code [encode x] (.dispatched (r x))) :
    RequestRow.Faithful ⟨code, exactly 1, fun l => do return .dispatched (r (← field decode l 0))⟩ := by
  intro l asked _ hl hr
  obtain ⟨x, hx, hr⟩ := bind_ok hr
  injection hr with hr
  rw [exactly_bytes hl, ← hr]
  have hread := h x
  rwa [field_code hinv hx] at hread

/-- A request whose one operand is a plain byte. -/
theorem faithful_byte {code : Byte} {r : Byte → Request} (h : ∀ b, ReadsAs code [b] (.dispatched (r b))) :
    RequestRow.Faithful ⟨code, exactly 1, fun l => .ok (.dispatched (r (byteAt l 0)))⟩ := by
  intro l asked _ hl hr
  injection hr with hr
  rw [exactly_bytes hl, ← hr]
  exact h _

/-! ### The table, block by block -/

theorem faithful_axisRows : ∀ row ∈ axisRows, row.Faithful := by
  simp only [axisRows, List.forall_mem_cons]
  refine ⟨?configureAxis, faithful_field finOfCode_inv fun _ => ⟨rfl, rfl, rfl⟩,
    faithful_field finOfCode_inv fun _ => ⟨rfl, rfl, rfl⟩, faithful_field finOfCode_inv fun _ => ⟨rfl, rfl, rfl⟩,
    ?setOffset, faithful_empty ⟨rfl, rfl, rfl⟩, faithful_field finOfCode_inv fun _ => ⟨rfl, rfl, rfl⟩,
    faithful_field finOfCode_inv fun _ => ⟨rfl, rfl, rfl⟩, ?align,
    faithful_field finOfCode_inv fun _ => ⟨rfl, rfl, rfl⟩, nofun⟩
  case configureAxis =>
    intro l asked _ hl hr
    obtain ⟨ax, hax, hr⟩ := bind_ok hr
    obtain ⟨d, hd, hr⟩ := bind_ok hr
    obtain ⟨tol, htol, hr⟩ := bind_ok hr
    injection hr with hr
    subst hr
    refine ⟨rfl, ?_, by simp only [Request.wellFormed, signed32_read, Bool.and_self]⟩
    simp only [Request.payload, signedBytes_read, le24_read24, field_fin hax, field_fin htol, field_code direction_inv hd]
    exact exactly_bytes hl
  case setOffset =>
    intro l asked _ hl hr
    obtain ⟨ax, hax, hr⟩ := bind_ok hr
    injection hr with hr
    subst hr
    refine ⟨rfl, ?_, signed32_read ..⟩
    simp only [Request.payload, signedBytes_read, field_fin hax]
    exact exactly_bytes hl
  case align =>
    intro l asked _ hl hr
    obtain ⟨ax, hax, hr⟩ := bind_ok hr
    obtain ⟨q, hq, hr⟩ := bind_ok hr
    obtain ⟨d, hd, hr⟩ := bind_ok hr
    injection hr with hr
    subst hr
    refine ⟨rfl, ?_, signed32_read ..⟩
    simp only [Request.payload, signedBytes_read, field_fin hax, field_code qualifier_inv hq, field_code dirReq_inv hd]
    exact exactly_bytes hl

theorem faithful_zoneRows : ∀ row ∈ zoneRows, row.Faithful := by
  simp only [zoneRows, List.forall_mem_cons]
  refine ⟨?defineZone, ?modifyZone, ?deleteZone, faithful_field finOfCode_inv fun _ => ⟨rfl, rfl, rfl⟩,
    faithful_field finOfCode_inv fun _ => ⟨rfl, rfl, rfl⟩, ?subscribeZone,
    faithful_field finOfCode_inv fun _ => ⟨rfl, rfl, rfl⟩, nofun⟩
  case defineZone =>
    intro l asked _ hl hr
    obtain ⟨ax, hax, hr⟩ := bind_ok hr
    obtain ⟨c, hc, hr⟩ := bind_ok hr
    obtain ⟨f, hf, hr⟩ := bind_ok hr
    injection hr with hr
    subst hr
    refine ⟨rfl, ?_, by simp only [Request.wellFormed, signed32_read, Bool.and_self]⟩
    simp only [Request.payload, signedBytes_read, le16_read16, field_fin hax, field_code captureFlags_inv hc,
      field_code choice_inv hf]
    exact exactly_bytes hl
  case modifyZone =>
    intro l asked _ hl hr
    obtain ⟨z, hz, hr⟩ := bind_ok hr
    obtain ⟨c, hc, hr⟩ := bind_ok hr
    injection hr with hr
    subst hr
    refine ⟨rfl, ?_, by simp only [Request.wellFormed, signed32_read, Bool.and_self]⟩
    simp only [Request.payload, signedBytes_read, le16_read16, field_fin hz, field_code captureFlags_inv hc]
    exact exactly_bytes hl
  case deleteZone =>
    intro l asked _ hl hr
    obtain ⟨z, hz, hr⟩ := bind_ok hr
    injection hr with hr
    subst hr
    refine ⟨rfl, ?_, rfl⟩
    simp only [Request.payload, le16_read16, field_fin hz]
    exact exactly_bytes hl
  case subscribeZone =>
    intro l asked _ hl hr
    obtain ⟨z, hz, hr⟩ := bind_ok hr
    obtain ⟨f, hf, hr⟩ := bind_ok hr
    injection hr with hr
    subst hr
    refine ⟨rfl, ?_, rfl⟩
    simp only [Request.payload, le16_read16, field_fin hz, field_code filter_inv hf]
    exact exactly_bytes hl

theorem faithful_outputRows : ∀ row ∈ outputRows, row.Faithful := by
  simp only [outputRows, List.forall_mem_cons]
  refine ⟨?claimOutput, ?renewLease, faithful_field finOfCode_inv fun _ => ⟨rfl, rfl, rfl⟩,
    faithful_field finOfCode_inv fun _ => ⟨rfl, rfl, rfl⟩, ?mapOutput, ?forceOutput, ?configureOutput,
    faithful_empty ⟨rfl, rfl, rfl⟩, nofun⟩
  case claimOutput =>
    intro l asked _ hl hr
    obtain ⟨o, ho, hr⟩ := bind_ok hr
    obtain ⟨w, hw, hr⟩ := bind_ok hr
    injection hr with hr
    subst hr
    refine ⟨rfl, ?_, rfl⟩
    simp only [Request.payload, le16_read16, field_fin ho, field_code bool_inv hw]
    exact exactly_bytes hl
  case renewLease =>
    intro l asked _ hl hr
    obtain ⟨o, ho, hr⟩ := bind_ok hr
    injection hr with hr
    subst hr
    refine ⟨rfl, ?_, rfl⟩
    simp only [Request.payload, le16_read16, field_fin ho]
    exact exactly_bytes hl
  case mapOutput =>
    intro l asked _ hl hr
    obtain ⟨o, ho, hr⟩ := bind_ok hr
    injection hr with hr
    subst hr
    refine ⟨rfl, ?_, rfl⟩
    simp only [Request.payload, le32_read32, field_fin ho]
    exact exactly_bytes hl
  case forceOutput =>
    intro l asked _ hl hr
    obtain ⟨o, ho, hr⟩ := bind_ok hr
    obtain ⟨f, hf, hr⟩ := bind_ok hr
    injection hr with hr
    subst hr
    refine ⟨rfl, ?_, rfl⟩
    simp only [Request.payload, field_fin ho, field_code force_inv hf]
    exact exactly_bytes hl
  case configureOutput =>
    intro l asked _ hl hr
    obtain ⟨o, ho, hr⟩ := bind_ok hr
    obtain ⟨pol, hpol, hr⟩ := bind_ok hr
    obtain ⟨h, hh, hr⟩ := bind_ok hr
    injection hr with hr
    subst hr
    refine ⟨rfl, ?_, rfl⟩
    simp only [Request.payload, field_fin ho, field_code policy_inv hpol, field_code bool_inv hh]
    exact exactly_bytes hl

/-- R165, R167: a payload of the length its third byte gives is three bytes and the message. -/
theorem postLengthOk_bytes {l : List Byte} (h : postLengthOk l = true) :
    l = [byteAt l 0, byteAt l 1, byteAt l 2] ++ l.drop 3 ∧ byteOf (l.drop 3).length = byteAt l 2 := by
  simp only [postLengthOk, Bool.and_eq_true, decide_eq_true_eq, beq_iff_eq] at h
  obtain ⟨hlong, hlen⟩ := h
  refine ⟨?_, ?_⟩
  · match l, hlong with
    | _ :: _ :: _ :: _, _ => rfl
  · rw [List.length_drop, hlen, Nat.add_sub_cancel_left]
    simp [byteOf]

theorem faithful_serviceRows : ∀ row ∈ serviceRows, row.Faithful := by
  simp only [serviceRows, List.forall_mem_cons]
  refine ⟨faithful_byte fun _ => ⟨rfl, rfl, rfl⟩, ?ackEvents, faithful_field bool_inv fun _ => ⟨rfl, rfl, rfl⟩,
    ?configureTrigger, faithful_field mode_inv fun _ => ⟨rfl, rfl, rfl⟩, faithful_empty ⟨rfl, rfl, rfl⟩,
    faithful_byte fun _ => ⟨rfl, rfl, rfl⟩, ?postMessage, faithful_empty ⟨rfl, rfl, rfl⟩,
    faithful_byte fun _ => ⟨rfl, rfl, rfl⟩, nofun⟩
  case ackEvents =>
    intro l asked _ hl hr
    injection hr with hr
    subst hr
    refine ⟨rfl, ?_, rfl⟩
    simp only [Request.payload, le16_read16]
    exact exactly_bytes hl
  case configureTrigger =>
    intro l asked _ hl hr
    obtain ⟨t, ht, hr⟩ := bind_ok hr
    obtain ⟨e, he, hr⟩ := bind_ok hr
    obtain ⟨axes, haxes, hr⟩ := bind_ok hr
    injection hr with hr
    subst hr
    refine ⟨rfl, ?_, rfl⟩
    simp only [Request.payload, field_fin ht, field_code edge_inv he, field_code axisSet_inv haxes]
    exact exactly_bytes hl
  case postMessage =>
    intro l asked hshort hl hr
    obtain ⟨hbytes, hlen⟩ := postLengthOk_bytes hl
    obtain ⟨recipient, hrec, hr⟩ := bind_ok hr
    obtain ⟨n, hn, hr⟩ := bind_ok hr
    injection hr with hr
    subst hr
    refine ⟨rfl, ?_, decide_eq_true ?_⟩
    · simp only [Request.payload, field_fin hrec, field_code bool_inv hn, hlen]
      exact hbytes
    · rw [List.length_drop, postRoom]
      omega

/-- R165, R167: every row of the table is faithful. -/
theorem faithful_requestRows : ∀ row ∈ requestRows, row.Faithful := by
  simp only [requestRows, List.forall_mem_append, List.forall_mem_cons]
  exact ⟨⟨⟨⟨⟨faithful_empty ⟨rfl, rfl⟩, faithful_empty ⟨rfl, rfl⟩, faithful_empty ⟨rfl, rfl⟩, nofun⟩,
    faithful_axisRows⟩, faithful_zoneRows⟩, faithful_outputRows⟩, faithful_serviceRows⟩

/-- R165, R167: what a payload that parsed under a known code is. -/
theorem readsAs_of_parse {code : Byte} {row : RequestRow} {payload : List Byte} {asked : Asked}
    (hlen : payload.length ≤ 59) (hrow : requestRow code = some row) (hp : row.parse payload = .ok asked) :
    ReadsAs code payload asked := by
  have hcode : row.code = code := by simpa using List.find?_some hrow
  unfold RequestRow.parse at hp
  split at hp
  · next hl => exact hcode ▸ faithful_requestRows row (List.mem_of_find?_eq_some hrow) payload asked hlen hl hp
  · cases hp

end Sys2Proof.Machine
end

section
/-!
PROOFS. What a transaction on a link can do, said once: the five ways in which the part goes on after a PUT, GET, PEEK, void
transaction, IDENTIFY, OPEN or CLOSE.
-/

namespace Sys2Proof.Machine

/-- The port on whose link a command is a transaction. -/
def transactionPort : Instr → Option Port
  | .put p .. | .get p .. | .peek p .. | .voidTransaction p .. | .identify p .. | .openSession p ..
  | .closeSession p .. => some p
  | _ => none

/-- What a transaction that opens, closes and dispatches nothing leaves of a port unit; the slot is WORKING after it exactly
when it was. -/
structure PortUnit.Quiet (u u' : PortUnit) : Prop where
  session : u'.session = u.session
  number : u'.number = u.number
  closePending : u'.closePending = u.closePending
  inFlight : u'.inFlight = u.inFlight
  busy : u'.slot.code = 1 ↔ u.slot.code = 1

/-- What a transaction of port `p` makes of a state: nothing; a change of what the port shows alone; a request dispatched; a
session opened; a session closed. -/
inductive TransactionDone (p : Port) (s : State) : State → Prop
  | nothing : TransactionDone p s s
  | quiet {u : PortUnit} (h : (s.ports.get p).Quiet u) : TransactionDone p s (s.setPort p u)
  | dispatched (code tag : Byte) (note : Bool) (r : Request) (miso : List Byte)
      (hopen : (s.ports.get p).session = .opened) (hfree : (s.ports.get p).slot.code ≠ 1) :
      TransactionDone p s (s.setPort p
        { s.ports.get p with
          slot := .working code tag note, inFlight := (s.ports.get p).inFlight ++ [⟨r, true⟩], miso := miso })
  | opened (r : Response) (miso : List Byte)
      (hclosed : (s.ports.get p).session = .closed) (hfree : (s.ports.get p).slot.code ≠ 1) :
      TransactionDone p s ((s.setPort p
        { s.ports.get p with
          session := .opened, number := nextNumber (s.ports.get p).number, slot := .answerReady r,
          miso := miso }).setQueue p (s.queues.get p).opened)
  | closed (code tag : Byte) (note : Bool) (miso : List Byte)
      (hopen : (s.ports.get p).session = .opened) (hfree : (s.ports.get p).slot.code ≠ 1) :
      TransactionDone p s (startTeardown p (s.setPort p
        { s.ports.get p with slot := .working code tag note, closePending := true, miso := miso }))

theorem State.setPort_setPort (p : Port) (u v : PortUnit) (s : State) : (s.setPort p u).setPort p v = s.setPort p v := by
  simp [State.setPort]

theorem startTeardown_setPort (p : Port) (u : PortUnit) (s : State) :
    startTeardown p (s.setPort p u) =
      (s.setPort p
        { u with session := .closing .two, inFlight := u.inFlight.filter fun d => d.request.owner ≠ .eventQueue }).setQueue p
        (EventQueue.closed
          { s.queues.get p with attention := attentionAfter u.inFlight (s.queues.get p).attention }) := by
  simp [startTeardown, State.setPort_setPort]

@[simp] theorem State.clockOut_get (p : Port) (l : List Byte) (s : State) :
    (s.clockOut p l).ports.get p = { s.ports.get p with miso := l } := by simp [State.clockOut]

/-- What a transaction does after the bytes it clocks out have been recorded, it does. -/
theorem TransactionDone.of_clockOut {p : Port} {l : List Byte} {s t : State} (h : TransactionDone p (s.clockOut p l) t) :
    TransactionDone p s t := by
  generalize hc : s.clockOut p l = s' at h
  have hget : s'.ports.get p = { s.ports.get p with miso := l } := by rw [← hc, State.clockOut_get]
  have hset (u : PortUnit) : s'.setPort p u = s.setPort p u := by rw [← hc, State.clockOut, State.setPort_setPort]
  have hqueue : s'.queues = s.queues := by rw [← hc]; rfl
  cases h with
  | nothing =>
    rw [← hc]
    exact .quiet ⟨rfl, rfl, rfl, rfl, .rfl⟩
  | quiet h =>
    rw [hset]
    rw [hget] at h
    exact .quiet ⟨h.session, h.number, h.closePending, h.inFlight, h.busy⟩
  | dispatched code tag note r miso hopen hfree =>
    rw [hset, hget]
    rw [hget] at hopen hfree
    exact .dispatched code tag note r miso hopen hfree
  | opened r miso hclosed hfree =>
    rw [hset, hget, hqueue]
    rw [hget] at hclosed hfree
    exact .opened r miso hclosed hfree
  | closed code tag note miso hopen hfree =>
    rw [hset, hget]
    rw [hget] at hopen hfree
    exact .closed code tag note miso hopen hfree

/-- An answer formed at once, by a port that is not WORKING. -/
theorem transactionDone_respond {p : Port} {s : State} (hfree : (s.ports.get p).slot.code ≠ 1) (code tag : Byte)
    (note : Bool) (a : Answer) : TransactionDone p s (s.respond p code tag note a) :=
  .quiet ⟨rfl, rfl, rfl, rfl, iff_of_false (by decide : (2 : Nat) ≠ 1) hfree⟩

/-- A frame judged by a port that is not WORKING (R148). -/
theorem transactionDone_judge {p : Port} {s : State} (hfree : (s.ports.get p).slot.code ≠ 1) (code number tag : Byte)
    {payload : List Byte} (hlen : payload.length ≤ 59) (note : Bool) :
    TransactionDone p s (judgeFrame p code number tag payload note s) := by
  rcases judge_cases p code number tag payload note s with ⟨a, h⟩ | ⟨row, asked, hrow, hsession, hparse, h⟩ <;> rw [h]
  · exact transactionDone_respond hfree code tag note a
  · have hread := readsAs_of_parse hlen hrow hparse
    cases asked with
    | identify => exact transactionDone_respond hfree code tag note _
    | openSession =>
      obtain ⟨rfl, -⟩ := hread
      have hclosed : (s.ports.get p).session = .closed := by
        cases hs : (s.ports.get p).session <;> simp [sessionVerdict, hs] at hsession ⊢
      have hdone := TransactionDone.opened (p := p)
        ⟨0x02, tag, .ok, note, nextNumber (s.ports.get p).number :: le32 s.timebase⟩ (s.ports.get p).miso hclosed hfree
      simpa [State.carryOut, State.respond, State.openedSession, State.setPort, State.setQueue, Answer.ok] using hdone
    | closeSession =>
      obtain ⟨rfl, -⟩ := hread
      exact .closed 0x03 tag note _ ((sessionVerdict_other (by decide) (by decide)).1 hsession).1 hfree
    | dispatched r =>
      obtain ⟨hcode, -, -⟩ := hread
      have hother := Request.code_other r
      have hopen := ((sessionVerdict_other (hcode ▸ hother.1) (hcode ▸ hother.2.1)).1 hsession).1
      exact .dispatched code tag note r _ hopen hfree

/-- R147: a frame that passes the frame tests has at most 64 bytes. -/
theorem length_of_frameVerdict {f : List Byte} (h : frameVerdict f = none) : f.length ≤ 64 := by
  unfold frameVerdict at h
  split at h
  · cases h
  · omega

/-- A frame taken by a port that is not WORKING (R147). -/
theorem transactionDone_take {p : Port} {s : State} (hfree : (s.ports.get p).slot.code ≠ 1) (f : List Byte)
    (note : Bool) : TransactionDone p s (takeFrame p f note s) := by
  unfold takeFrame
  split
  · exact transactionDone_respond hfree _ _ note _
  · next h =>
    have hlen := length_of_frameVerdict h
    exact transactionDone_judge hfree _ _ _ (by simp only [List.length_dropLast, List.length_drop]; omega) note

theorem State.Takes.free {s : State} {p : Port} {note : Bool} (h : s.Takes p note) :
    (s.ports.get p).slot.code ≠ 1 := by
  rcases h.slot with ⟨_, hs⟩ | ⟨_, r, hs⟩ <;> rw [hs] <;> nofun

theorem transactionDone_put {p : Port} {s : State} (n : Nat) {f : Bool → State → State}
    (hf : ∀ note t, (t.ports.get p).slot.code ≠ 1 → TransactionDone p t (f note t)) :
    TransactionDone p s (putTransaction p n f s) := by
  rcases putTransaction_cases p n f s with h | h | ⟨note, htakes, h⟩ <;> rw [h]
  · exact .of_clockOut .nothing
  · exact .of_clockOut (.quiet ⟨rfl, rfl, rfl, rfl, .rfl⟩)
  · exact .of_clockOut (hf note _ (by rw [State.clockOut_get]; exact htakes.free))

theorem ReqSlot.afterGet_busy (n : Nat) (sl : ReqSlot) : (sl.afterGet n).code = 1 ↔ sl.code = 1 := by
  cases sl with
  | ready | working => exact .rfl
  | answerReady r =>
    simp only [ReqSlot.afterGet]
    split
    · exact iff_of_false (by decide : (0 : Nat) ≠ 1) (by decide : (2 : Nat) ≠ 1)
    · exact .rfl

theorem transactionDone_read {p : Port} {s : State} (n : Nat) (held : List Byte) {slot : ReqSlot}
    (hslot : slot.code = 1 ↔ (s.ports.get p).slot.code = 1) :
    TransactionDone p s (readTransaction p n held slot s) := by
  unfold readTransaction
  dsimp only
  split
  · exact .of_clockOut .nothing
  · exact .quiet ⟨rfl, rfl, rfl, rfl, hslot⟩

theorem transactionDone_void (p : Port) (bytes : List Byte) (s : State) :
    ∃ t, execVoidTransaction p bytes s = .next t ∧ TransactionDone p s t := by
  unfold execVoidTransaction
  split
  · exact ⟨_, rfl, .nothing⟩
  · split
    · exact ⟨_, rfl, .nothing⟩
    · refine ⟨_, rfl, ?_⟩
      split
      · exact .of_clockOut .nothing
      · exact .of_clockOut (.quiet ⟨rfl, rfl, rfl, rfl, .rfl⟩)

/-- Every command that is a transaction of a port does one of the five things. -/
theorem transaction_done {c : Instr} {p : Port} (hc : transactionPort c = some p) (s : State) :
    ∃ t, exec c s = .next t ∧ TransactionDone p s t := by
  cases c
  case put =>
    obtain rfl := Option.some.inj hc
    exact ⟨_, rfl, transactionDone_put _ fun note _ h => transactionDone_take h _ note⟩
  case get =>
    obtain rfl := Option.some.inj hc
    exact ⟨_, rfl, transactionDone_read _ _ (ReqSlot.afterGet_busy ..)⟩
  case peek =>
    obtain rfl := Option.some.inj hc
    exact ⟨_, rfl, transactionDone_read _ _ .rfl⟩
  case voidTransaction =>
    obtain rfl := Option.some.inj hc
    exact transactionDone_void ..
  case identify | openSession | closeSession =>
    obtain rfl := Option.some.inj hc
    exact ⟨_, rfl, transactionDone_put _ fun note _ h => transactionDone_judge h _ _ _ (by decide) note⟩
  all_goals exact nomatch hc

end Sys2Proof.Machine
end

section
/-!
PROOFS. The law of the request slot (R146, R150, R155): what each change of a port unit does to the count of answers it
awaits.
-/

namespace Sys2Proof.Table

/-- What holds of every entry holds of every entry after one that has it is put in. -/
theorem forall_get_put {n : Nat} {α : Type} {P : Fin n → α → Prop} {t : Table n α} {i : Fin n} {x : α}
    (h : ∀ j, P j (t.get j)) (hx : P i x) (j : Fin n) : P j ((t.put i x).get j) := by
  rw [get_put]
  split
  · next hij => exact hij ▸ hx
  · exact h j

end Sys2Proof.Table

namespace Sys2Proof.Machine

/-- The requests in flight whose answer the slot awaits. -/
def awaitedIn (ds : List Dispatch) : Nat := (ds.filter Dispatch.awaited).length

theorem awaitedIn_append (ds es : List Dispatch) : awaitedIn (ds ++ es) = awaitedIn ds + awaitedIn es := by
  simp [awaitedIn]

theorem awaitedIn_cons (d : Dispatch) (ds : List Dispatch) :
    awaitedIn (d :: ds) = (if d.awaited then 1 else 0) + awaitedIn ds := by
  unfold awaitedIn
  rw [List.filter_cons]
  split
  · rw [List.length_cons, Nat.add_comm]
  · rw [Nat.zero_add]

theorem awaitedIn_perm {ds es : List Dispatch} (h : ds.Perm es) : awaitedIn ds = awaitedIn es := (h.filter _).length_eq

theorem awaitedIn_filter_le (f : Dispatch → Bool) (ds : List Dispatch) : awaitedIn (ds.filter f) ≤ awaitedIn ds :=
  (List.filter_sublist.filter _).length_le

/-- R156: after PRSTn no answer is awaited. -/
theorem awaitedIn_recalled (ds : List Dispatch) : awaitedIn (ds.map fun d => { d with awaited := false }) = 0 := by
  simp [awaitedIn]

theorem ready_free : ReqSlot.ready.code ≠ 1 := by decide

theorem answerReady_free (r : Response) : (ReqSlot.answerReady r).code ≠ 1 := (by decide : (2 : Nat) ≠ 1)

/-- The law of the slot, by whether the slot is WORKING. -/
theorem PortUnit.slotLaw_iff (u : PortUnit) :
    u.SlotLaw ↔
      (u.slot.code = 1 → awaitedIn u.inFlight + (if u.closePending then 1 else 0) = 1) ∧
      (u.slot.code ≠ 1 → awaitedIn u.inFlight = 0 ∧ u.closePending = false) ∧
      (u.closePending = true → u.session.code = 2) := by
  constructor
  · intro h
    have hone : awaitedIn u.inFlight + (if u.closePending then 1 else 0) = if u.slot.code = 1 then 1 else 0 := h.awaitsOne
    refine ⟨fun hw => by rw [hone, if_pos hw], fun hf => ?_, h.closing⟩
    rw [if_neg hf] at hone
    exact ⟨by omega, by by_contra hc; simp [hc] at hone⟩
  · rintro ⟨hworking, hfree, hclosing⟩
    refine ⟨?_, hclosing⟩
    change awaitedIn u.inFlight + (if u.closePending then 1 else 0) = _
    split_ifs with hc hw hw
    · simpa [hc] using hworking hw
    · exact absurd ((hfree hw).2.symm.trans hc) (by decide)
    · simpa [hc] using hworking hw
    · simpa using (hfree hw).1

/-- A port unit that awaits nothing. -/
theorem PortUnit.slotLaw_of_free {u : PortUnit} (hs : u.slot.code ≠ 1) (hw : awaitedIn u.inFlight = 0)
    (hc : u.closePending = false) : u.SlotLaw :=
  u.slotLaw_iff.2 ⟨fun h => absurd h hs, fun _ => ⟨hw, hc⟩, fun h => absurd (hc.symm.trans h) (by decide)⟩

/-- A port unit not WORKING awaits nothing. -/
theorem PortUnit.SlotLaw.free {u : PortUnit} (h : u.SlotLaw) (hs : u.slot.code ≠ 1) :
    awaitedIn u.inFlight = 0 ∧ u.closePending = false := (u.slotLaw_iff.1 h).2.1 hs

theorem PortUnit.SlotLaw.of_quiet {u v : PortUnit} (h : u.SlotLaw) (hq : u.Quiet v) : v.SlotLaw := by
  rw [PortUnit.slotLaw_iff] at h ⊢
  simpa only [ne_eq, hq.busy, hq.inFlight, hq.closePending, hq.session] using h

/-- Any other session, as long as a pending CLOSE finds it in teardown. -/
theorem PortUnit.SlotLaw.withSession {u : PortUnit} (h : u.SlotLaw) {ss : Session}
    (hs : u.closePending = true → ss.code = 2) : PortUnit.SlotLaw { u with session := ss } := ⟨h.awaitsOne, hs⟩

/-- R150: an owner's answer comes back for a request in flight. -/
theorem PortUnit.SlotLaw.receive {u : PortUnit} (h : u.SlotLaw) {d : Dispatch} {rest : List Dispatch}
    (hperm : u.inFlight.Perm (d :: rest)) (a : Answer) :
    (PortUnit.receive d.awaited a { u with inFlight := rest }).SlotLaw := by
  have hcount := (awaitedIn_perm hperm).trans (awaitedIn_cons d rest)
  cases hd : d.awaited with
  | false =>
    have hcount : awaitedIn u.inFlight = awaitedIn rest := by simpa [hd] using hcount
    rw [PortUnit.slotLaw_iff, hcount] at h
    exact (PortUnit.slotLaw_iff _).2 h
  | true =>
    have hcount : awaitedIn u.inFlight = 1 + awaitedIn rest := by simpa [hd] using hcount
    cases hs : u.slot with
    | ready | answerReady =>
      have := (h.free (by rw [hs]; nofun)).1
      omega
    | working code tag note =>
      have hone := (u.slotLaw_iff.1 h).1 (by rw [hs]; rfl)
      have hc : u.closePending = false := Bool.eq_false_iff.2 fun hc => by rw [if_pos hc] at hone; omega
      simp only [PortUnit.receive]
      exact PortUnit.slotLaw_of_free (answerReady_free _) (show awaitedIn rest = 0 by omega) hc

/-- R155, R157: a teardown ended. -/
theorem PortUnit.SlotLaw.ended {u : PortUnit} (h : u.SlotLaw) : u.ended.SlotLaw := by
  unfold PortUnit.ended
  dsimp only
  split
  · next hc =>
    cases hs : u.slot with
    | ready | answerReady => exact absurd ((h.free (by rw [hs]; nofun)).2.symm.trans hc) (by decide)
    | working code tag note =>
      have hone := (u.slotLaw_iff.1 h).1 (by rw [hs]; rfl)
      rw [if_pos hc] at hone
      simp only [PortUnit.receive]
      exact PortUnit.slotLaw_of_free (answerReady_free _) (show awaitedIn u.inFlight = 0 by omega) rfl
  · next hc => exact ⟨by simpa [hc] using h.awaitsOne, nofun⟩

/-! ### The slots of the part -/

theorem State.SlotLaw.setPort {s : State} (h : s.SlotLaw) {p : Port} {u : PortUnit} (hu : u.SlotLaw) :
    (s.setPort p u).SlotLaw :=
  Table.forall_get_put (P := fun _ u => PortUnit.SlotLaw u) h hu

theorem State.SlotLaw.of_ports {s t : State} (h : s.SlotLaw) (hp : t.ports = s.ports) : t.SlotLaw :=
  fun p => hp ▸ h p

/-- R157: stage 1: the session goes to CLOSING, and what is in flight to the event queue is gone. -/
theorem State.SlotLaw.startTeardown_setPort {s : State} (h : s.SlotLaw) {p : Port} {u : PortUnit}
    (hw : awaitedIn u.inFlight = 0) (hu : (if u.closePending then 1 else 0) = if u.slot.code = 1 then 1 else 0) :
    (startTeardown p (s.setPort p u)).SlotLaw := by
  rw [Machine.startTeardown_setPort]
  refine (h.setPort (p := p) ⟨?_, fun _ => rfl⟩).of_ports rfl
  have hzero : awaitedIn (u.inFlight.filter fun d => d.request.owner ≠ .eventQueue) = 0 :=
    Nat.le_zero.1 (hw ▸ awaitedIn_filter_le _ _)
  change awaitedIn _ + _ = _
  rw [hzero, Nat.zero_add]
  exact hu

theorem State.SlotLaw.transaction {s t : State} {p : Port} (h : s.SlotLaw) (ht : TransactionDone p s t) : t.SlotLaw := by
  cases ht with
  | nothing => exact h
  | quiet hq => exact h.setPort ((h p).of_quiet hq)
  | dispatched code tag note r miso hopen hfree =>
    obtain ⟨hw, hc⟩ := (h p).free hfree
    refine h.setPort ((PortUnit.slotLaw_iff _).2 ⟨fun _ => ?_, fun hn => absurd rfl hn, fun hp => ?_⟩)
    · change awaitedIn (_ ++ [⟨r, true⟩]) + (if (s.ports.get p).closePending then 1 else 0) = 1
      rw [awaitedIn_append, hw, hc]
      rfl
    · exact absurd (hc.symm.trans hp) (by decide)
  | opened r miso hclosed hfree =>
    obtain ⟨hw, hc⟩ := (h p).free hfree
    refine State.SlotLaw.of_ports (s := s.setPort p _) (h.setPort ?_) rfl
    exact PortUnit.slotLaw_of_free (answerReady_free r) hw hc
  | closed code tag note miso hopen hfree => exact h.startTeardown_setPort ((h p).free hfree).1 rfl

/-- R150: the answer of an owner. -/
theorem State.SlotLaw.portsAfter {s t : State} (h : s.SlotLaw) (ht : PortsAfter s t) : t.SlotLaw := by
  rcases ht with hp | ⟨p, r, aw, rest, a, hf, hp⟩
  · exact h.of_ports hp
  · exact (h.setPort ((h p).receive (pick_perm hf) a)).of_ports hp

theorem State.SlotLaw.toStage {s t : State} (h : s.SlotLaw) (ht : t.ports = s.ports) (p : Port) (st : Stage) :
    (t.toStage p st).SlotLaw :=
  (h.of_ports ht).setPort ((h.of_ports ht p).withSession fun _ => rfl)

/-- R159: every port after part reset. -/
theorem PortUnit.slotLaw_reset (b : Bool) : (PortUnit.reset b).SlotLaw := ⟨rfl, nofun⟩

theorem State.SlotLaw.exec (c : Instr) (s t : State) (h : s.SlotLaw) (ht : exec c s = .next t) : t.SlotLaw := by
  cases hc : touchesPorts c with
  | false => exact of_exec_next ((ports_after c s hc).imp fun _ hp => ⟨hp.1, h.portsAfter hp.2⟩) ht
  | true =>
    cases c
    case put | get | peek | voidTransaction | identify | openSession | closeSession =>
      exact of_exec_next ((transaction_done rfl s).imp fun _ hd => ⟨hd.1, h.transaction hd.2⟩) ht
    case teardownStage2 | teardownStage3 | teardownStage5 =>
      injection ht with ht
      subst ht
      split
      · exact h.toStage (by simp) _ _
      · exact h
    case teardownStage4 =>
      simp only [Machine.exec, execTeardownStage4] at ht
      split at ht
      · split at ht <;> injection ht with ht <;> subst ht
        · exact h.toStage rfl _ _
        · exact h
      · injection ht with ht
        exact ht ▸ h
    case teardownStage6 =>
      injection ht with ht
      subst ht
      split
      · exact h.setPort (h _).ended
      · exact h
    case prstnAssert =>
      simp only [Machine.exec, execPrstnAssert] at ht
      split at ht <;> injection ht with ht <;> subst ht
      · exact h
      · split
        · exact h.startTeardown_setPort (awaitedIn_recalled _) rfl
        · exact h.setPort (PortUnit.slotLaw_of_free ready_free (awaitedIn_recalled _) rfl)
    case prstnRelease =>
      injection ht with ht
      subst ht
      exact h.setPort ⟨(h _).awaitsOne, (h _).closing⟩
    case rstnAssert | supplyBelowRange =>
      injection ht with ht
      subst ht
      intro p
      simp only [State.resetBlocks, Table.get_mapIdx]
      exact PortUnit.slotLaw_reset _
    all_goals exact nomatch (show false = true from hc)

/-- A microsecond reaches no port unit. -/
theorem microsecond_ports (s : State) : s.microsecond.ports = s.ports := by
  rcases microsecond_cases s with ⟨_, h⟩ | ⟨_, _, h⟩ | ⟨_, _, h⟩ <;> rw [h] <;> rfl

end Sys2Proof.Machine

namespace Sys2Proof.LawsKept

open Machine

/-- Settles O53: by what each command does to a port unit; only a dispatch and an accepted CLOSE make a slot WORKING, and
only the answer they await takes it out of WORKING again. -/
theorem slotLawKept : Obligations.SlotLawKept :=
  step_keeps (fun _ _ h => h) (fun s h => h.of_ports (microsecond_ports s)) State.SlotLaw.exec

end Sys2Proof.LawsKept
end

section
/-!
PROOFS. What can become of an axis unit, said once: the ways in which a request of a port or an event of the encoder replaces
it. The laws of the axis and of the session follow from these.
-/

namespace Sys2Proof.Machine

/-- What a request of port `q` that its axis unit accepts makes of the unit `u` (R8, R11–R14, R19, R25, R36). -/
inductive AxisUnit.Asked (q : Port) (u : AxisUnit) : AxisUnit → Prop
  | configured (c : AxisConfig) (hidle : u.state = .idle) : Asked q u { u with config := c }
  | started (hwin : u.inWindow u.offset = true) : Asked q u (u.started.notify (.thaw u.started.position .start))
  | stopped : Asked q u (AxisUnit.notify (.freeze u.position .stop) { u with state := .idle })
  | resumed (hin : u.inRange = true) : Asked q u (AxisUnit.notify (.thaw u.position .resume) { u with state := .free })
  | offset (x : Int) (hx : offsetInRange x = true) (hdead : u.state.isLive = false) : Asked q u { u with offset := x }
  | rebased (x : Int) (hx : offsetInRange x = true) (hlive : u.state.isLive = true) (hfree : ∀ a, u.state ≠ .armed a)
      (hwin : u.inWindow (u.count + x) = true) :
      Asked q u (AxisUnit.notify (.rebase (u.count + x) .offset) { u with offset := x })
  | subscribers (b : Bool) : Asked q u { u with subscribers := u.subscribers.put q b }
  | armed (a : Alignment) (ha : a.aligner = q) (hlive : u.state.isLive = true) (hok : u.presetOk a.preset = true) :
      Asked q u { u with state := .armed a }
  | rearmed (a : Alignment) (ha : a.aligner = q) (hok : u.presetOk a.preset = true) (hin : u.inRange = true) :
      Asked q u (AxisUnit.notify (.thaw u.position .resume) { u with state := .armed a })
  | cancelled (hlive : u.state.isLive = true) : Asked q u { u with state := .free }

/-- The axis units after the owner's work on a request of port `q` to axis `ax`: as they were, or that one as the port asked. -/
def AxesAsked (q : Port) (ax : Axis) (before after : Table 4 AxisUnit) : Prop :=
  after = before ∨ ∃ v, (before.get ax).Asked q v ∧ after = before.put ax v

/-- The port and the axis of a request to an axis unit. -/
def axisRequest : Instr → Option (Port × Axis)
  | .configureAxis q ax .. | .start q ax | .stop q ax | .resume q ax | .setOffset q ax _ | .subscribeAxis q ax
  | .unsubscribeAxis q ax | .align q ax .. | .cancelAlign q ax => some (q, ax)
  | _ => none

variable {q : Port} {ax : Axis}

theorem configureAxis_asked (m : Byte) (d : Direction) (lo hi : Int) (pi : BitVec 24) (tol : Fin 16) (s : State) :
    AxesAsked q ax s.axes (configureAxis ax m d lo hi pi tol s).1.axes := by
  unfold configureAxis
  dsimp only
  split_ifs with hidle
  · exact .inl rfl
  · exact .inl rfl
  · split
    · exact .inl rfl
    · exact .inr ⟨_, .configured _ (not_not.1 hidle), rfl⟩

theorem startAxis_asked (s : State) : AxesAsked q ax s.axes (startAxis ax s).1.axes := by
  unfold startAxis
  dsimp only
  split_ifs with _ _ hwin
  · exact .inl rfl
  · exact .inl rfl
  · exact .inl rfl
  · exact .inr ⟨_, .started (by simpa using hwin), rfl⟩

theorem stopAxis_asked (s : State) : AxesAsked q ax s.axes (stopAxis ax s).1.axes := by
  unfold stopAxis
  dsimp only
  split_ifs
  · exact .inl rfl
  · exact .inr ⟨_, .stopped, rfl⟩

theorem resumeAxis_asked (s : State) : AxesAsked q ax s.axes (resumeAxis ax s).1.axes := by
  unfold resumeAxis
  dsimp only
  split_ifs with _ _ hin
  · exact .inl rfl
  · exact .inl rfl
  · exact .inl rfl
  · exact .inr ⟨_, .resumed (by simpa using hin), rfl⟩

theorem setOffset_asked (x : Int) (s : State) : AxesAsked q ax s.axes (setOffset ax x s).1.axes := by
  cases hx : offsetInRange x with
  | false =>
    rw [setOffset_of_badOffset hx]
    exact .inl rfl
  | true =>
    cases hs : (s.axes.get ax).state with
    | armed a =>
      rw [setOffset_of_armed hx hs]
      exact .inl rfl
    | idle =>
      rw [setOffset_unchecked hx (.inl hs)]
      exact .inr ⟨_, .offset x hx (by rw [hs]; rfl), rfl⟩
    | lost c =>
      rw [setOffset_unchecked hx (.inr ⟨c, hs⟩)]
      exact .inr ⟨_, .offset x hx (by rw [hs]; rfl), rfl⟩
    | free | aligned =>
      have hchecked : (s.axes.get ax).state.offsetChecked := by simp [AxisState.offsetChecked, hs]
      cases hw : (s.axes.get ax).inWindow ((s.axes.get ax).count + x) with
      | false =>
        rw [setOffset_of_outside hx hchecked hw]
        exact .inl rfl
      | true =>
        rw [setOffset_checked hx hchecked hw]
        exact .inr ⟨_, .rebased x hx (by rw [hs]; rfl) (by rw [hs]; nofun) hw, rfl⟩

theorem unsubscribeAxis_asked (s : State) : AxesAsked q ax s.axes (unsubscribeAxis q ax s).1.axes := by
  unfold unsubscribeAxis
  dsimp only
  split_ifs
  · exact .inr ⟨_, .subscribers false, rfl⟩
  · exact .inl rfl

theorem alignAxis_asked (preset : Int) (qu : Qualifier) (d : DirReq) (s : State) :
    AxesAsked q ax s.axes (alignAxis q ax preset qu d s).1.axes := by
  unfold alignAxis
  dsimp only
  split
  · exact .inl rfl
  · next b hs =>
    split_ifs with _ hok
    · exact .inl rfl
    · exact .inl rfl
    · exact .inr ⟨_, .armed ⟨q, preset, qu, d⟩ rfl (by rw [hs]; rfl) (by simpa using hok), rfl⟩
  · next hs =>
    split_ifs with hok
    · exact .inl rfl
    · exact .inr ⟨_, .armed ⟨q, preset, qu, d⟩ rfl (by rw [hs]; rfl) (by simpa using hok), rfl⟩
  · next hs =>
    split_ifs with hok
    · exact .inl rfl
    · exact .inr ⟨_, .armed ⟨q, preset, qu, d⟩ rfl (by rw [hs]; rfl) (by simpa using hok), rfl⟩
  · split_ifs with hok _ hin
    · exact .inl rfl
    · exact .inl rfl
    · exact .inl rfl
    · exact .inr ⟨_, .rearmed ⟨q, preset, qu, d⟩ rfl (by simpa using hok) (by simpa using hin), rfl⟩

theorem cancelAlign_asked (s : State) : AxesAsked q ax s.axes (cancelAlign q ax s).1.axes := by
  unfold cancelAlign
  dsimp only
  split
  · next a hs =>
    split_ifs
    · exact .inl rfl
    · exact .inr ⟨_, .cancelled (by rw [hs]; rfl), rfl⟩
  · exact .inl rfl

/-- A request that is to be taken is in flight to its owner. -/
theorem State.Flying.inFlightTo {s : State} {p : Port} {r : Request} {aw : Bool} {rest : List Dispatch}
    (h : s.Flying p r aw rest) : inFlightTo r.owner (s.ports.get p).inFlight = true := by
  obtain ⟨-, hmem⟩ := mem_of_pick h
  exact List.any_eq_true.2 ⟨_, (hmem _).2 (.inl rfl), by simp⟩

/-- What a claim makes of the axis units: nothing, or what its work makes of them, the port's request being in flight. -/
theorem claim_axes {r : Request} {work : State → State × Answer} (ho : r.owner = .axisUnit ax)
    (hw : ∀ s, AxesAsked q ax s.axes (work s).1.axes) (s : State) :
    ∃ t, claim q r work s = .next t ∧ (t.axes = s.axes ∨
      inFlightTo (.axisUnit ax) (s.ports.get q).inFlight = true ∧
        ∃ v, (s.axes.get ax).Asked q v ∧ t.axes = s.axes.put ax v) := by
  rcases claim_cases q r work s with h | ⟨aw, rest, hf, h⟩
  · exact ⟨_, h, .inl rfl⟩
  · exact ⟨_, h, (hw (s.withInFlight q rest)).imp id fun hv => ⟨ho ▸ hf.inFlightTo, hv⟩⟩

/-- R148: what a request to an axis unit makes of the axis units. -/
theorem axisRequest_axes {c : Instr} (hc : axisRequest c = some (q, ax)) (s : State) :
    ∃ t, exec c s = .next t ∧ (t.axes = s.axes ∨
      inFlightTo (.axisUnit ax) (s.ports.get q).inFlight = true ∧
        ∃ v, (s.axes.get ax).Asked q v ∧ t.axes = s.axes.put ax v) := by
  cases c
  case configureAxis => cases hc; exact claim_axes rfl (configureAxis_asked _ _ _ _ _ _) s
  case start => cases hc; exact claim_axes rfl startAxis_asked s
  case stop => cases hc; exact claim_axes rfl stopAxis_asked s
  case resume => cases hc; exact claim_axes rfl resumeAxis_asked s
  case setOffset => cases hc; exact claim_axes rfl (setOffset_asked _) s
  case subscribeAxis => cases hc; exact claim_axes rfl (fun s => .inr ⟨_, .subscribers true, rfl⟩) s
  case unsubscribeAxis => cases hc; exact claim_axes rfl unsubscribeAxis_asked s
  case align => cases hc; exact claim_axes rfl (alignAxis_asked _ _ _) s
  case cancelAlign => cases hc; exact claim_axes rfl cancelAlign_asked s
  all_goals exact nomatch hc

/-! ### What the encoder does -/

/-- What an event of an axis's encoder makes of its unit `u` (R1–R4, R30–R40). -/
inductive AxisUnit.Sensed (ax : Axis) (u : AxisUnit) : AxisUnit → Prop
  | stepped (now : Word) (raw : StepDir) : Sensed ax u (u.encoderStep ax now raw).1
  | faulted (now : Word) (phase : Phase) (level : Bool) :
      Sensed ax u (AxisUnit.signalFault ax now { u with phase := phase, lineFault := level }).1
  | levelled (level : Bool) : Sensed ax u { u with lineFault := level }
  | pulsed (now : Word) (ts : Table 4 Trigger) : Sensed ax u (u.indexPulse ax now ts).1

/-- The axis of an event of the encoder. -/
def encoderEvent : Instr → Option Axis
  | .encoderStep ax _ | .skippedState ax | .lineFaultRise ax | .lineFaultFall ax | .indexPulse ax => some ax
  | _ => none

theorem encoderEvent_axes {c : Instr} (hc : encoderEvent c = some ax) (s : State) :
    ∃ t, exec c s = .next t ∧
      (t.axes = s.axes ∨ ∃ v, (s.axes.get ax).Sensed ax v ∧ t.axes = s.axes.put ax v) := by
  cases c
  case encoderStep => cases hc; exact ⟨_, rfl, .inr ⟨_, .stepped s.timebase _, rfl⟩⟩
  case skippedState => cases hc; exact ⟨_, rfl, .inr ⟨_, .faulted s.timebase _ _, rfl⟩⟩
  case lineFaultRise =>
    cases hc
    simp only [exec, execLineFaultRise]
    split
    · exact ⟨_, rfl, .inl rfl⟩
    · exact ⟨_, rfl, .inr ⟨_, .faulted s.timebase _ true, rfl⟩⟩
  case lineFaultFall => cases hc; exact ⟨_, rfl, .inr ⟨_, .levelled false, rfl⟩⟩
  case indexPulse => cases hc; exact ⟨_, rfl, .inr ⟨_, .pulsed s.timebase s.triggers, rfl⟩⟩
  all_goals exact nomatch hc

/-! ### What the zone controller takes from the path -/

/-- The axis whose path a command of the zone controller takes from (R22, R56). -/
def pathTaken : Instr → Option Axis
  | .sample ax | .rebaseNotice ax | .freezeNotice ax | .thawNotice ax => some ax
  | _ => none

/-- Whether a view is live after a message has been taken. -/
def AxisMsg.liveAfter (live : Bool) : AxisMsg → Bool
  | .sample .. | .rebase .. => live
  | .freeze .. => false
  | .thaw .. => true

/-- A message taken from the head of an axis unit's path, and what it leaves of the view's liveness. -/
theorem pathTaken_axes {c : Instr} (hc : pathTaken c = some ax) (s : State) :
    ∃ t, exec c s = .next t ∧ ((t.axes = s.axes ∧ t.views = s.views) ∨
      ∃ m rest v, (s.axes.get ax).outbox = m :: rest ∧
        t.axes = s.axes.put ax { s.axes.get ax with outbox := rest } ∧ t.views = s.views.put ax v ∧
        decide (v.liveness = .live) = m.liveAfter (decide ((s.views.get ax).liveness = .live))) := by
  cases c
  case sample =>
    cases hc
    simp only [exec, execSample]
    split
    · next x b rest h => exact ⟨_, rfl, .inr ⟨_, rest, _, h, rfl, rfl, rfl⟩⟩
    · exact ⟨_, rfl, .inl ⟨rfl, rfl⟩⟩
  case rebaseNotice =>
    cases hc
    simp only [exec, execRebaseNotice]
    split
    · next x b rest h => exact ⟨_, rfl, .inr ⟨_, rest, _, h, rfl, rfl, rfl⟩⟩
    · exact ⟨_, rfl, .inl ⟨rfl, rfl⟩⟩
  case freezeNotice =>
    cases hc
    simp only [exec, execFreezeNotice]
    split
    · next x b rest h => exact ⟨_, rfl, .inr ⟨_, rest, _, h, rfl, rfl, rfl⟩⟩
    · exact ⟨_, rfl, .inl ⟨rfl, rfl⟩⟩
  case thawNotice =>
    cases hc
    simp only [exec, execThawNotice]
    split
    · next x b rest h => exact ⟨_, rfl, .inr ⟨_, rest, _, h, rfl, rfl, rfl⟩⟩
    · exact ⟨_, rfl, .inl ⟨rfl, rfl⟩⟩
  all_goals exact nomatch hc

/-- A command that is none of these, nor stage 4 of a teardown, nor part reset, reaches no axis unit. -/
theorem touchesAxes_cases {c : Instr} (h : touchesAxes c = true) :
    c = .rstnAssert ∨ c = .supplyBelowRange ∨ (∃ p ax, c = .teardownStage4 p ax) ∨
      (∃ q ax, axisRequest c = some (q, ax)) ∨ (∃ ax, encoderEvent c = some ax) ∨ ∃ ax, pathTaken c = some ax := by
  cases c
  case rstnAssert => exact .inl rfl
  case supplyBelowRange => exact .inr (.inl rfl)
  case teardownStage4 => exact .inr (.inr (.inl ⟨_, _, rfl⟩))
  case configureAxis | start | stop | resume | setOffset | subscribeAxis | unsubscribeAxis | align | cancelAlign =>
    exact .inr (.inr (.inr (.inl ⟨_, _, rfl⟩)))
  case encoderStep | skippedState | lineFaultRise | lineFaultFall | indexPulse =>
    exact .inr (.inr (.inr (.inr (.inl ⟨_, rfl⟩))))
  case sample | rebaseNotice | freezeNotice | thawNotice => exact .inr (.inr (.inr (.inr (.inr ⟨_, rfl⟩))))
  all_goals exact nomatch (show false = true from h)

end Sys2Proof.Machine
end

section
/-!
PROOFS. The law of the session (R157, R158), read as one statement: what a port holds with an owner, or has in flight to it,
its session still allows. First what a port holds with each owner; then that only a request of the port can make it hold more;
then what each change of a session leaves allowed.
-/

namespace Sys2Proof.Machine

/-! ### What a port holds with an owner -/

/-- R19, R23: a port subscribes to the axis or is its aligner. -/
def AxisUnit.Holds (u : AxisUnit) (p : Port) : Prop :=
  u.subscribers.get p = true ∨ ∃ a, u.state = .armed a ∧ a.aligner = p

/-- R71: a port holds the lease of the output or waits for it. -/
def Output.Holds (out : Output) (p : Port) : Prop :=
  (∃ l, out.lease = some l ∧ l.holder = p) ∨ ∃ w ∈ out.waiters, w.port = p

/-- R42: a port authors the zone of the slot or subscribes to it. -/
def Slot.Holds (sl : Slot) (p : Port) : Prop :=
  ∃ zn, sl.zone = some zn ∧ (zn.author = p ∨ (zn.subscribers.get p).isSome = true)

/-- R114: a port authors the trigger's record. -/
def Trigger.Holds (t : Trigger) (p : Port) : Prop := ∃ c, t.config = some c ∧ c.author = p

/-- What a port holds with an owner beside its requests in flight. -/
def State.Holds (s : State) (p : Port) : Owner → Prop
  | .axisUnit ax => (s.axes.get ax).Holds p
  | .zoneController => (∃ o, (s.outputs.get o).Holds p) ∨ ∃ z, (s.zones.get z).Holds p
  | .captureUnit => (s.capture.cursors.get p).isSome = true ∨ ∃ t, (s.triggers.get t).Holds p
  | _ => False

theorem inFlightTo_iff {o : Owner} {ds : List Dispatch} : inFlightTo o ds = true ↔ ∃ d ∈ ds, d.request.owner = o := by
  simp [inFlightTo]

/-- What a port holds with an owner or has in flight to it. -/
def State.Engages (s : State) (p : Port) (o : Owner) : Prop := s.Holds p o ∨ inFlightTo o (s.ports.get p).inFlight = true

/-- The law of the session as one statement. -/
theorem State.sessionLaw_iff (s : State) :
    s.SessionLaw ↔ ∀ p o, s.Engages p o → (s.ports.get p).session.may o = true := by
  constructor
  · rintro h p o (hh | hf)
    · cases o with
      | axisUnit ax =>
        rcases hh with hsub | ⟨a, ha, rfl⟩
        · exact h.axisSubscribers ax p hsub
        · exact h.aligners ax a ha
      | zoneController =>
        rcases hh with ⟨o, ⟨l, hl, rfl⟩ | ⟨w, hw, rfl⟩⟩ | ⟨z, zn, hz, rfl | hsub⟩
        · exact h.holders o l hl
        · exact h.waiters o w hw
        · exact h.authors z zn hz
        · exact h.zoneSubscribers z zn p hz hsub
      | captureUnit =>
        rcases hh with hc | ⟨t, c, hc, rfl⟩
        · obtain ⟨k, hk⟩ := Option.isSome_iff_exists.1 hc
          exact h.cursors p k hk
        · exact h.triggers t c hc
      | snapshotLatch | eventQueue | messageRelay => exact hh.elim
    · obtain ⟨d, hd, rfl⟩ := inFlightTo_iff.1 hf
      exact h.flights p d hd
  · intro h
    exact
      { flights := fun p d hd => h p _ (.inr (inFlightTo_iff.2 ⟨d, hd, rfl⟩))
        holders := fun o l hl => h _ .zoneController (.inl (.inl ⟨o, .inl ⟨l, hl, rfl⟩⟩))
        waiters := fun o w hw => h _ .zoneController (.inl (.inl ⟨o, .inr ⟨w, hw, rfl⟩⟩))
        authors := fun z zn hz => h _ .zoneController (.inl (.inr ⟨z, zn, hz, .inl rfl⟩))
        zoneSubscribers := fun z zn p hz hsub => h p .zoneController (.inl (.inr ⟨z, zn, hz, .inr hsub⟩))
        axisSubscribers := fun ax p hsub => h p (.axisUnit ax) (.inl (.inl hsub))
        aligners := fun ax a ha => h _ (.axisUnit ax) (.inl (.inr ⟨a, ha, rfl⟩))
        cursors := fun p k hk => h p .captureUnit (.inl (.inl (by rw [hk]; rfl)))
        triggers := fun t c hc => h _ .captureUnit (.inl (.inr ⟨t, c, hc, rfl⟩)) }

/-- What a claim can make a port hold: what it held, or what its own request asked of its owner. -/
theorem engages_after_claim {H : State → Port → Prop} (hport : ∀ q u s, H (State.setPort q u s) = H s) {o : Owner}
    {q : Port} {r : Request} {work : State → State × Answer}
    (hw : ∀ s p, H (work s).1 p → H s p ∨ (p = q ∧ r.owner = o)) {s t : State} (ht : claim q r work s = .next t)
    {p : Port} (h : H t p) : H s p ∨ inFlightTo o (s.ports.get p).inFlight = true := by
  rcases claim_cases q r work s with hc | ⟨aw, rest, hf, hc⟩ <;> rw [hc] at ht <;> injection ht with ht <;> subst ht
  · exact .inl h
  · rw [State.answer, hport] at h
    rcases hw _ p h with h | ⟨rfl, ho⟩
    · rw [State.withInFlight, hport] at h
      exact .inl h
    · exact .inr (ho ▸ hf.inFlightTo)

/-- What is held with one of a table's entries after one has been put in place. -/
theorem holds_put {n : Nat} {α : Type} {H : α → Port → Prop} {t : Table n α} {i j : Fin n} {x : α} {p : Port}
    (h : H ((t.put i x).get j) p) : H (t.get j) p ∨ (i = j ∧ H x p) := by
  rw [Table.get_put] at h
  split at h
  · next he => exact .inr ⟨he, h⟩
  · exact .inl h

/-! ### The axis units -/

/-- An axis unit with the subscribers of another that is not newly ARMED has no new aligner or subscriber. -/
theorem AxisUnit.Holds.of_same {u v : AxisUnit} {p : Port} (h : v.Holds p) (hsub : v.subscribers = u.subscribers)
    (hst : ∀ a, v.state = .armed a → u.state = .armed a) : u.Holds p :=
  h.imp (fun h => hsub ▸ h) fun ⟨a, ha, hp⟩ => ⟨a, hst a ha, hp⟩

theorem AxisUnit.Holds.of_asked {u v : AxisUnit} {p q : Port} (h : v.Holds p) (hv : u.Asked q v) : u.Holds p ∨ p = q := by
  cases hv with
  | configured | offset | rebased => exact .inl (h.of_same rfl fun _ => id)
  | started | stopped | resumed | cancelled => exact .inl (h.of_same rfl nofun)
  | subscribers b =>
    rcases h with h | h
    · simp only [Table.get_put] at h
      split at h
      · next hq => exact .inr hq.symm
      · exact .inl (.inl h)
    · exact .inl (.inr h)
  | armed a ha | rearmed a ha =>
    rcases h with h | ⟨b, hb, hp⟩
    · exact .inl (.inl h)
    · exact .inr (hp ▸ AxisState.armed.inj hb ▸ ha)

@[simp] theorem AxisUnit.pushSample_subscribers (b : Bool) (u : AxisUnit) :
    (u.pushSample b).subscribers = u.subscribers := by
  unfold AxisUnit.pushSample AxisUnit.notify
  split <;> rfl

@[simp] theorem AxisUnit.pushSample_state (b : Bool) (u : AxisUnit) : (u.pushSample b).state = u.state := by
  unfold AxisUnit.pushSample AxisUnit.notify
  split <;> rfl

theorem AxisUnit.Holds.of_enterLost {ax : Axis} {now : Word} {c : LostCause} {u : AxisUnit} {p : Port}
    (h : (u.enterLost ax now c).1.Holds p) : u.Holds p := h.of_same rfl nofun

theorem AxisUnit.Holds.of_countedStep {ax : Axis} {now : Word} {d : StepDir} {u : AxisUnit} {p : Port}
    (h : (u.countedStep ax now d).1.Holds p) : u.Holds p := by
  unfold AxisUnit.countedStep at h
  dsimp only at h
  split at h
  · have hpush (w : AxisUnit) (hw : w.Holds p) (hs : w.subscribers = u.subscribers) (hst : w.state = u.state) :
        u.Holds p := hw.of_same hs fun a ha => hst ▸ ha
    have hcounted (w : AxisUnit) (hs : w.subscribers = u.subscribers) (hst : w.state = u.state)
        (hw : (if w.inRange then (w, []) else w.enterLost ax now .range).1.Holds p) : u.Holds p := by
      split at hw
      · exact hpush w hw hs hst
      · exact hpush w hw.of_enterLost hs hst
    split at h
    · exact hcounted { u with count := countStep d u.count } rfl rfl h
    · exact hcounted (AxisUnit.pushSample (u.state = .aligned) { u with count := countStep d u.count }) (by simp) (by simp) h
  · exact h.of_same rfl fun _ => id

theorem AxisUnit.Holds.of_sensed {ax : Axis} {u v : AxisUnit} {p : Port} (h : v.Holds p) (hv : u.Sensed ax v) :
    u.Holds p := by
  cases hv with
  | stepped now raw =>
    unfold AxisUnit.encoderStep at h
    dsimp only at h
    split at h
    · exact h.of_same rfl fun _ => id
    · split at h
      · exact h.of_countedStep.of_same rfl fun _ => id
      · exact h.of_same rfl fun _ => id
  | faulted now phase level =>
    unfold AxisUnit.signalFault at h
    split at h
    · exact h.of_enterLost.of_same rfl fun _ => id
    · exact h.of_same rfl fun _ => id
  | levelled => exact h.of_same rfl fun _ => id
  | pulsed now ts =>
    unfold AxisUnit.indexPulse at h
    dsimp only at h
    split at h
    · exact h
    · exact h.of_same rfl fun _ => id
    · exact h.of_same rfl fun _ => id
    · split at h
      · exact h.of_same rfl nofun
      · exact h.of_same rfl fun _ => id
    · split at h
      · exact h.of_same rfl fun _ => id
      · exact h.of_enterLost

/-- R20: a port that has left the subscriber set. -/
theorem get_put_false {t : Table 4 Bool} {q p : Port} (h : (t.put q false).get p = true) : p ≠ q ∧ t.get p = true := by
  rw [Table.get_put] at h
  split at h
  · cases h
  · next hq => exact ⟨Ne.symm hq, h⟩

/-- R37: after stage 4 the port holds nothing with the axis unit, and no port holds more. -/
theorem AxisUnit.Holds.of_tearDown {ax : Axis} {now : Word} {q : Port} {u : AxisUnit} {p : Port}
    (h : (u.tearDown ax now q).1.Holds p) : p ≠ q ∧ u.Holds p := by
  unfold AxisUnit.tearDown at h
  dsimp only at h
  split at h
  · next b hb =>
    split at h
    · rcases h with h | ⟨a, ha, -⟩
      · exact ⟨(get_put_false h).1, .inl (get_put_false h).2⟩
      · cases ha
    · next hq =>
      rcases h with h | ⟨a, ha, rfl⟩
      · exact ⟨(get_put_false h).1, .inl (get_put_false h).2⟩
      · exact ⟨AxisState.armed.inj (hb.symm.trans ha) ▸ hq, .inr ⟨a, ha, rfl⟩⟩
  · next hn =>
    rcases h with h | ⟨a, ha, -⟩
    · exact ⟨(get_put_false h).1, .inl (get_put_false h).2⟩
    · exact absurd ha (hn a)

/-- R19, R23: only a request to an axis unit makes a port hold more with it. -/
theorem axis_engages {c : Instr} {s t : State} (hc : touchesPorts c = false) (ht : exec c s = .next t) {p : Port}
    {ax' : Axis} (h : t.Holds p (.axisUnit ax')) : s.Engages p (.axisUnit ax') := by
  change (t.axes.get ax').Holds p at h
  cases hx : touchesAxes c with
  | false => exact .inl ((of_exec_next (Q := fun t => t.axes = s.axes) (keeps_axes c s hx) ht ▸ h : (s.axes.get ax').Holds p))
  | true =>
    rcases touchesAxes_cases hx with rfl | rfl | ⟨_, _, rfl⟩ | ⟨q, ax, hq⟩ | ⟨ax, hax⟩ | ⟨ax, hax⟩
    · exact nomatch (show true = false from hc)
    · exact nomatch (show true = false from hc)
    · exact nomatch (show true = false from hc)
    · rcases of_exec_next (axisRequest_axes hq s) ht with he | ⟨hf, v, hv, he⟩ <;> rw [he] at h
      · exact .inl h
      · rcases holds_put (H := AxisUnit.Holds) h with h | ⟨rfl, hnew⟩
        · exact .inl h
        · rcases hnew.of_asked hv with hold | rfl
          · exact .inl hold
          · exact .inr hf
    · rcases of_exec_next (encoderEvent_axes hax s) ht with he | ⟨v, hv, he⟩ <;> rw [he] at h
      · exact .inl h
      · rcases holds_put (H := AxisUnit.Holds) h with h | ⟨rfl, hnew⟩
        · exact .inl h
        · exact .inl (hnew.of_sensed hv)
    · rcases of_exec_next (pathTaken_axes hax s) ht with ⟨he, _⟩ | ⟨_, _, _, _, he, _⟩ <;> rw [he] at h
      · exact .inl h
      · rcases holds_put (H := AxisUnit.Holds) h with h | ⟨rfl, hnew⟩
        · exact .inl h
        · exact .inl (hnew.of_same rfl fun _ => id)

end Sys2Proof.Machine
end

section
/-!
PROOFS. The law of the session, continued: the output lines, the zone table and the capture unit; then the changes of the
sessions themselves, and the statement.
-/

namespace Sys2Proof.Machine

/-! ### The output lines -/

/-- An output with the lease and the waiters of another is held and waited for by no other port. -/
theorem Output.Holds.of_same {out out' : Output} {p : Port} (h : out'.Holds p) (hl : out'.lease = out.lease)
    (hw : out'.waiters = out.waiters) : out.Holds p := by
  unfold Output.Holds at h ⊢
  rwa [hl, hw] at h

/-- R82: a lease that ends leaves the waiters: one of them may be the holder now. -/
theorem Output.Holds.of_endLease {out : Output} {p : Port} (h : out.endLease.Holds p) : out.Holds p := by
  unfold Output.endLease at h
  split at h
  · next hw =>
    rcases h with ⟨l, hl, -⟩ | ⟨w, hw', rfl⟩
    · cases hl
    · exact .inr ⟨w, hw', rfl⟩
  · next w ws hw =>
    rcases h with ⟨l, hl, rfl⟩ | ⟨w', hw', rfl⟩
    · obtain rfl := Option.some.inj hl
      exact .inr ⟨w, by simp [hw], rfl⟩
    · exact .inr ⟨w', hw ▸ List.mem_cons_of_mem _ hw', rfl⟩

/-- R79, R84: a port that leaves the queue waits no longer. -/
theorem Output.Holds.of_withoutWaiter {out : Output} {p q : Port}
    (h : Output.Holds { out with waiters := withoutWaiter q out.waiters } p) :
    out.Holds p ∧ (p = q → ∃ l, out.lease = some l ∧ l.holder = q) := by
  rcases h with ⟨l, hl, rfl⟩ | ⟨w, hw, rfl⟩
  · exact ⟨.inl ⟨l, hl, rfl⟩, fun he => ⟨l, hl, he⟩⟩
  · simp only [withoutWaiter, List.mem_filter, decide_eq_true_eq] at hw
    exact ⟨.inr ⟨w, hw.1, rfl⟩, fun he => absurd he hw.2⟩

theorem Output.Holds.of_tick {out : Output} {p : Port} (h : out.tick.Holds p) : out.Holds p := by
  unfold Output.tick at h
  split at h
  · exact h
  · next l hl =>
    split at h
    · exact h
    · rcases h with ⟨l', hl', rfl⟩ | h
      · obtain rfl := Option.some.inj hl'
        exact .inl ⟨l, hl, rfl⟩
      · exact .inr h

/-- R93: a claim that only recomputes outputs leaves leases and waiters as they are. -/
theorem Output.Holds.of_recomputed {zones : Table 32 Slot} {touched : ZoneId → Bool} {outs : Table 8 Output} {o : Line}
    {p : Port} (h : ((recomputed zones touched outs).get o).Holds p) : (outs.get o).Holds p := by
  simp only [recomputed, Table.get_mapIdx] at h
  split at h
  · exact h.of_same rfl rfl
  · exact h

theorem Output.Holds.of_deleted {zones : Table 32 Slot} {gone : BitVec 32} {outs : Table 8 Output} {o : Line}
    {p : Port} (h : ((deletedOutputs zones gone outs).get o).Holds p) : (outs.get o).Holds p := by
  simp only [deletedOutputs, unmapped, Table.get_mapIdx] at h
  split at h <;> exact h.of_same rfl rfl

theorem Output.heldBy_iff {p : Port} {out : Output} : out.heldBy p = true ↔ ∃ l, out.lease = some l ∧ l.holder = p := by
  unfold Output.heldBy
  cases out.lease <;> simp

/-- What one output put in place changes of what a port holds of the lines. -/
theorem lines_holds_put {outs : Table 8 Output} {o : Line} {out : Output} {p : Port}
    (h : ∃ o', ((outs.put o out).get o').Holds p) (hout : out.Holds p → (outs.get o).Holds p ∨ q) :
    (∃ o', (outs.get o').Holds p) ∨ q := by
  obtain ⟨o', h⟩ := h
  rcases holds_put (H := Output.Holds) h with h | ⟨-, hnew⟩
  · exact .inl ⟨o', h⟩
  · exact (hout hnew).imp (fun hold => ⟨o, hold⟩) id

section

variable {o : Line} {p q : Port} {s : State}

theorem claimOutput_holds {d : BitVec 16} {w : Bool}
    (h : ∃ o', ((claimOutput q o d w s).1.outputs.get o').Holds p) : (∃ o', (s.outputs.get o').Holds p) ∨ p = q := by
  unfold claimOutput at h
  dsimp only at h
  split at h
  · exact .inl h
  · split at h
    · refine lines_holds_put h fun hout => ?_
      rcases hout with ⟨l, hl, rfl⟩ | hw
      · exact .inr (Option.some.inj hl ▸ rfl)
      · exact .inl (.inr hw)
    · split at h
      · exact .inl h
      · split at h
        · exact .inl h
        · split at h
          · exact .inl h
          · refine lines_holds_put h fun hout => ?_
            rcases hout with hl | ⟨w, hw, rfl⟩
            · exact .inl (.inl hl)
            · rcases List.mem_append.1 hw with hw | hw
              · exact .inl (.inr ⟨w, hw, rfl⟩)
              · exact .inr (List.mem_singleton.1 hw ▸ rfl)

theorem renewLease_holds {d : BitVec 16}
    (h : ∃ o', ((renewLease q o d s).1.outputs.get o').Holds p) : (∃ o', (s.outputs.get o').Holds p) ∨ p = q := by
  unfold renewLease at h
  dsimp only at h
  split at h
  · exact .inl h
  · split at h
    · exact .inl h
    · split at h
      · exact .inl h
      · refine lines_holds_put h fun hout => ?_
        rcases hout with ⟨l, hl, rfl⟩ | hw
        · exact .inr (Option.some.inj hl ▸ rfl)
        · exact .inl (.inr hw)

theorem endLease_holds {cause : Cause} (h : ∃ o', ((s.endLease o cause).outputs.get o').Holds p) :
    ∃ o', (s.outputs.get o').Holds p := by
  simpa using lines_holds_put (q := False) h fun hout =>
    .inl (Output.Holds.of_endLease (hout.of_same (out := (s.outputs.get o).endLease) rfl rfl))

theorem releaseOutput_holds (h : ∃ o', ((releaseOutput q o s).1.outputs.get o').Holds p) :
    ∃ o', (s.outputs.get o').Holds p := by
  unfold releaseOutput at h
  dsimp only at h
  split at h
  · exact h
  · exact endLease_holds h

theorem cancelWait_holds (h : ∃ o', ((cancelWait q o s).1.outputs.get o').Holds p) :
    ∃ o', (s.outputs.get o').Holds p := by
  unfold cancelWait at h
  dsimp only at h
  split at h
  · exact h
  · simpa using lines_holds_put (q := False) h fun hout => .inl hout.of_withoutWaiter.1

theorem holderChange_holds {out : Output} (hl : out.lease = (s.outputs.get o).lease)
    (hw : out.waiters = (s.outputs.get o).waiters) (h : ∃ o', ((s.holderChange o out).1.outputs.get o').Holds p) :
    ∃ o', (s.outputs.get o').Holds p := by
  simpa using lines_holds_put (q := False) h fun hout => .inl (hout.of_same hl hw)

theorem mapOutput_holds {set : BitVec 32} (h : ∃ o', ((mapOutput q o set s).1.outputs.get o').Holds p) :
    ∃ o', (s.outputs.get o').Holds p := by
  unfold mapOutput at h
  dsimp only at h
  split at h
  · exact h
  · split at h
    · exact h
    · exact holderChange_holds (out := { s.outputs.get o with map := set }) rfl rfl h

theorem forceOutput_holds {f : Force} (h : ∃ o', ((forceOutput q o f s).1.outputs.get o').Holds p) :
    ∃ o', (s.outputs.get o').Holds p := by
  unfold forceOutput at h
  dsimp only at h
  split at h
  · exact h
  · exact holderChange_holds (out := { s.outputs.get o with force := f }) rfl rfl h

theorem configureOutput_holds {pol : LossPolicy} {hr : Bool}
    (h : ∃ o', ((configureOutput q o pol hr s).1.outputs.get o').Holds p) : ∃ o', (s.outputs.get o').Holds p := by
  unfold configureOutput at h
  dsimp only at h
  split at h
  · exact h
  · exact holderChange_holds (out := { s.outputs.get o with policy := pol, hold := hr }) rfl rfl h

theorem modifyZone_holds {z : ZoneId} {g : BitVec 16} {lo up : Int} {gd : BitVec 16} {c : CaptureFlags}
    (h : ∃ o', ((modifyZone q z g lo up gd c s).1.outputs.get o').Holds p) : ∃ o', (s.outputs.get o').Holds p := by
  unfold modifyZone at h
  dsimp only at h
  repeat' split at h
  case h_2 => exact h.imp fun _ => Output.Holds.of_recomputed
  all_goals exact h

theorem deleteZone_holds {z : ZoneId} {g : BitVec 16}
    (h : ∃ o', ((deleteZone q z g s).1.outputs.get o').Holds p) : ∃ o', (s.outputs.get o').Holds p := by
  unfold deleteZone at h
  dsimp only at h
  repeat' split at h
  case h_2 => exact h.imp fun _ => Output.Holds.of_deleted
  all_goals exact h

theorem takeExpiry_holds (h : ∃ o', ((takeExpiry o s).outputs.get o').Holds p) : ∃ o', (s.outputs.get o').Holds p := by
  have hkeep (h : ∃ o', ((s.keepOutput o { s.outputs.get o with expiryClaim := false }).outputs.get o').Holds p) :
      ∃ o', (s.outputs.get o').Holds p := by
    simpa using lines_holds_put (q := False) h fun hout => .inl (hout.of_same rfl rfl)
  unfold takeExpiry at h
  dsimp only at h
  repeat' split at h
  case h_1.isTrue => exact hkeep (endLease_holds h)
  all_goals exact hkeep h

end

/-- R71: only a request to the zone controller makes a port hold or wait for more lines. -/
theorem lines_engages {c : Instr} {s t : State} (hc : touchesPorts c = false) (ht : exec c s = .next t) {p : Port}
    (h : ∃ o, (t.outputs.get o).Holds p) :
    (∃ o, (s.outputs.get o).Holds p) ∨ inFlightTo .zoneController (s.ports.get p).inFlight = true := by
  cases hx : touchesLines c with
  | false =>
    have he := of_exec_next (Q := fun t => (t.outputs, t.drivers, t.ohold) = (s.outputs, s.drivers, s.ohold))
      (keeps_lines c s hx) ht
    exact .inl ((Prod.mk.inj he).1 ▸ h)
  | true =>
    have hport : ∀ q u (s : State), (fun p => ∃ o, ((State.setPort q u s).outputs.get o).Holds p) =
        fun p => ∃ o, (s.outputs.get o).Holds p := fun _ _ _ => rfl
    have hclaim {q : Port} {r : Request} {work : State → State × Answer} (ho : r.owner = .zoneController)
        (ht : claim q r work s = .next t)
        (hw : ∀ s p, (∃ o, ((work s).1.outputs.get o).Holds p) → (∃ o, (s.outputs.get o).Holds p) ∨ p = q) :=
      engages_after_claim (H := fun s p => ∃ o, (s.outputs.get o).Holds p) hport
        (fun s p h => (hw s p h).imp id fun hp => ⟨hp, ho⟩) ht h
    have hboth : (touchesLines c && !touchesPorts c) = true := by rw [hx, hc]; rfl
    cases c
    case sample | rebaseNotice | freezeNotice | thawNotice =>
      simp only [exec, execSample, execRebaseNotice, execFreezeNotice, execThawNotice] at ht
      split at ht <;> injection ht with ht <;> subst ht
      · exact .inl (h.imp fun _ => Output.Holds.of_recomputed)
      · exact .inl h
    case modifyZone => exact hclaim rfl ht fun _ _ h => .inl (modifyZone_holds h)
    case deleteZone => exact hclaim rfl ht fun _ _ h => .inl (deleteZone_holds h)
    case claimOutput => exact hclaim rfl ht fun _ _ h => claimOutput_holds h
    case renewLease => exact hclaim rfl ht fun _ _ h => renewLease_holds h
    case releaseOutput => exact hclaim rfl ht fun _ _ h => .inl (releaseOutput_holds h)
    case cancelWait => exact hclaim rfl ht fun _ _ h => .inl (cancelWait_holds h)
    case mapOutput => exact hclaim rfl ht fun _ _ h => .inl (mapOutput_holds h)
    case forceOutput => exact hclaim rfl ht fun _ _ h => .inl (forceOutput_holds h)
    case configureOutput => exact hclaim rfl ht fun _ _ h => .inl (configureOutput_holds h)
    case leaseTick =>
      injection ht with ht
      subst ht
      split at h
      · exact .inl h
      · exact .inl (h.imp fun o h => Output.Holds.of_tick (by simpa using h))
    case leaseExpiry =>
      simp only [exec, execLeaseExpiry] at ht
      split at ht <;> injection ht with ht <;> subst ht
      · exact .inl (takeExpiry_holds h)
      · exact .inl h
    case oholdChange =>
      injection ht with ht
      subst ht
      exact .inl h
    all_goals exact nomatch (show false = true from hboth)

end Sys2Proof.Machine
end

section
/-!
PROOFS. The law of the session, continued: the zone table and the capture unit.
-/

namespace Sys2Proof.Machine

/-! ### The zone table -/

/-- R59–R63: an evaluation of a zone changes its membership and whether it is frozen, and nothing else of it. -/
def Evaluation.Judges (f : Evaluation) : Prop :=
  ∀ z g zn, ∃ m fr, (f z g zn).1 = { zn with membership := m, frozen := fr }

theorem sampleEvaluation_judges (prev cur : Int) (now : Word) : Evaluation.Judges (sampleEvaluation prev cur now) := by
  intro z g zn
  unfold sampleEvaluation
  split
  · exact ⟨zn.membership, zn.frozen, rfl⟩
  · exact ⟨_, zn.frozen, rfl⟩

theorem rebaseEvaluation_judges (prev cur : Int) (cause : RebaseCause) (now : Word) :
    Evaluation.Judges (rebaseEvaluation prev cur cause now) := by
  intro z g zn
  unfold rebaseEvaluation
  split
  · exact ⟨zn.membership, zn.frozen, rfl⟩
  · exact ⟨_, zn.frozen, rfl⟩

theorem freezeEvaluation_judges (x : Int) (cause : FreezeCause) (now : Word) :
    Evaluation.Judges (freezeEvaluation x cause now) := fun _ _ zn => ⟨zn.membership, true, rfl⟩

theorem thawEvaluation_judges (x : Int) (cause : ThawCause) (now : Word) :
    Evaluation.Judges (thawEvaluation x cause now) := fun _ _ _ => ⟨_, false, rfl⟩

/-- A zone after an evaluation of its axis is the zone before it, judged. -/
theorem evaluated_zone {ax : Axis} {f : Evaluation} (hf : f.Judges) {zones : Table 32 Slot} {z : ZoneId} {zn' : Zone}
    (h : ((evaluated ax f zones).get z).zone = some zn') :
    ∃ zn m fr, (zones.get z).zone = some zn ∧ zn' = { zn with membership := m, frozen := fr } := by
  simp only [evaluated, Table.get_mapIdx, Slot.onAxis] at h
  cases hz : (zones.get z).zone with
  | none => simp [hz] at h
  | some zn =>
    simp only [hz] at h
    split at h
    · next zn₁ hax =>
      have hsame : zn = zn₁ := by
        split at hax
        · exact Option.some.inj hax
        · cases hax
      obtain ⟨m, fr, hm⟩ := hf z (zones.get z).generation zn₁
      exact ⟨zn, m, fr, rfl, by rw [hsame, ← hm]; exact (Option.some.inj h).symm⟩
    · exact ⟨zn, zn.membership, zn.frozen, rfl, (Option.some.inj (hz.symm.trans h)).symm⟩

/-- R59–R63: what a sample or a notice makes of the zone table. -/
theorem pathTaken_zones {c : Instr} {ax : Axis} (hc : pathTaken c = some ax) (s : State) :
    ∃ t, exec c s = .next t ∧ (t.zones = s.zones ∨ ∃ f, Evaluation.Judges f ∧ t.zones = evaluated ax f s.zones) := by
  cases c
  case sample =>
    cases hc
    simp only [exec, execSample]
    split
    · exact ⟨_, rfl, .inr ⟨_, sampleEvaluation_judges _ _ _, rfl⟩⟩
    · exact ⟨_, rfl, .inl rfl⟩
  case rebaseNotice =>
    cases hc
    simp only [exec, execRebaseNotice]
    split
    · exact ⟨_, rfl, .inr ⟨_, rebaseEvaluation_judges _ _ _ _, rfl⟩⟩
    · exact ⟨_, rfl, .inl rfl⟩
  case freezeNotice =>
    cases hc
    simp only [exec, execFreezeNotice]
    split
    · exact ⟨_, rfl, .inr ⟨_, freezeEvaluation_judges _ _ _, rfl⟩⟩
    · exact ⟨_, rfl, .inl rfl⟩
  case thawNotice =>
    cases hc
    simp only [exec, execThawNotice]
    split
    · exact ⟨_, rfl, .inr ⟨_, thawEvaluation_judges _ _ _, rfl⟩⟩
    · exact ⟨_, rfl, .inl rfl⟩
  all_goals exact nomatch hc

theorem Slot.Holds.of_evaluated {ax : Axis} {f : Evaluation} (hf : f.Judges) {zones : Table 32 Slot} {z : ZoneId} {p : Port}
    (h : ((evaluated ax f zones).get z).Holds p) : (zones.get z).Holds p := by
  obtain ⟨zn', hz', hp⟩ := h
  obtain ⟨zn, m, fr, hz, rfl⟩ := evaluated_zone hf hz'
  exact ⟨zn, hz, hp⟩

/-- What one slot put in place changes of what a port holds of the zones. -/
theorem zones_holds_put {zones : Table 32 Slot} {z : ZoneId} {sl : Slot} {p : Port} {q : Prop}
    (h : ∃ z', ((zones.put z sl).get z').Holds p) (hsl : sl.Holds p → (zones.get z).Holds p ∨ q) :
    (∃ z', (zones.get z').Holds p) ∨ q := by
  obtain ⟨z', h⟩ := h
  rcases holds_put (H := Slot.Holds) h with h | ⟨-, hnew⟩
  · exact .inl ⟨z', h⟩
  · exact (hsl hnew).imp (fun hold => ⟨z, hold⟩) id

/-- A port that is given an entry of a subscriber set: any other entry was there. -/
theorem isSome_get_put {α : Type} {t : Table 4 (Option α)} {q p : Port} {x : Option α}
    (h : ((t.put q x).get p).isSome = true) : (p = q ∧ x.isSome = true) ∨ (p ≠ q ∧ (t.get p).isSome = true) := by
  rw [Table.get_put] at h
  split at h
  · next he => exact .inl ⟨he.symm, h⟩
  · next he => exact .inr ⟨Ne.symm he, h⟩

section

variable {p q : Port} {s : State}

theorem defineZone_holds {ax : Axis} {lo up : Int} {gd : BitVec 16} {c : CaptureFlags} {f : Option Filter}
    (h : ∃ z', ((defineZone q ax lo up gd c f s).1.zones.get z').Holds p) : (∃ z', (s.zones.get z').Holds p) ∨ p = q := by
  unfold defineZone at h
  dsimp only at h
  split at h
  · exact .inl h
  · split at h
    · exact .inl h
    · split at h
      · exact .inl h
      · refine zones_holds_put h fun hnew => .inr ?_
        obtain ⟨zn, hz, hp⟩ := hnew
        obtain rfl := Option.some.inj hz
        rcases hp with hp | hp
        · exact hp.symm
        · rcases isSome_get_put hp with ⟨he, -⟩ | ⟨-, hno⟩
          · exact he
          · simp at hno

theorem modifyZone_zones_holds {z : ZoneId} {g : BitVec 16} {lo up : Int} {gd : BitVec 16} {c : CaptureFlags}
    (h : ∃ z', ((modifyZone q z g lo up gd c s).1.zones.get z').Holds p) : ∃ z', (s.zones.get z').Holds p := by
  unfold modifyZone at h
  dsimp only at h
  split at h
  · exact h
  · next zn hz =>
    split_ifs at h
    · exact h
    · exact h
    · exact h
    · split at h
      · exact h
      · refine (zones_holds_put (q := False) h fun hnew => .inl ?_).resolve_right id
        obtain ⟨zn', hz', hp⟩ := hnew
        obtain rfl := Option.some.inj hz'
        exact ⟨zn, hz, hp⟩

theorem deleteZone_zones_holds {z : ZoneId} {g : BitVec 16}
    (h : ∃ z', ((deleteZone q z g s).1.zones.get z').Holds p) : ∃ z', (s.zones.get z').Holds p := by
  unfold deleteZone at h
  dsimp only at h
  split at h
  · exact h
  · split_ifs at h
    · exact h
    · exact h
    · split at h
      · exact h
      · exact (zones_holds_put (q := False) h nofun).resolve_right id

theorem subscribeZone_holds {z : ZoneId} {g : BitVec 16} {f : Filter}
    (h : ∃ z', ((subscribeZone q z g f s).1.zones.get z').Holds p) : (∃ z', (s.zones.get z').Holds p) ∨ p = q := by
  unfold subscribeZone at h
  dsimp only at h
  split at h
  · exact .inl h
  · next zn hz =>
    split_ifs at h
    · exact .inl h
    · refine zones_holds_put h fun hnew => ?_
      obtain ⟨zn', hz', hp⟩ := hnew
      obtain rfl := Option.some.inj hz'
      rcases hp with hp | hp
      · exact .inl ⟨zn, hz, .inl hp⟩
      · rcases isSome_get_put hp with ⟨he, -⟩ | ⟨-, hsub⟩
        · exact .inr he
        · exact .inl ⟨zn, hz, .inr hsub⟩

/-- R66, R68: a zone that a port no longer subscribes to. -/
theorem Slot.Holds.of_unsubscribed {sl : Slot} {zn : Zone} (hz : sl.zone = some zn)
    (h : Slot.Holds { sl with zone := some { zn with subscribers := zn.subscribers.put q none } } p) :
    sl.Holds p ∧ (p = q → zn.author = q) := by
  obtain ⟨zn', hz', hp⟩ := h
  obtain rfl := Option.some.inj hz'
  rcases hp with hp | hp
  · exact ⟨⟨zn, hz, .inl hp⟩, fun he => he ▸ hp⟩
  · rcases isSome_get_put hp with ⟨-, hno⟩ | ⟨hne, hsub⟩
    · cases hno
    · exact ⟨⟨zn, hz, .inr hsub⟩, fun he => absurd he hne⟩

theorem unsubscribeZone_holds {z : ZoneId} (h : ∃ z', ((unsubscribeZone q z s).1.zones.get z').Holds p) :
    ∃ z', (s.zones.get z').Holds p := by
  unfold unsubscribeZone at h
  dsimp only at h
  split at h
  · exact h
  · next zn hz =>
    split_ifs at h
    · exact h
    · exact (zones_holds_put (q := False) h fun hnew => .inl (hnew.of_unsubscribed hz).1).resolve_right id

end

/-- R42, R65: only a request to the zone controller makes a port author or subscribe to more zones. -/
theorem zones_engages {c : Instr} {s t : State} (hc : touchesPorts c = false) (ht : exec c s = .next t) {p : Port}
    (h : ∃ z, (t.zones.get z).Holds p) :
    (∃ z, (s.zones.get z).Holds p) ∨ inFlightTo .zoneController (s.ports.get p).inFlight = true := by
  cases hx : touchesZones c with
  | false => exact .inl (of_exec_next (Q := fun t => t.zones = s.zones) (keeps_zones c s hx) ht ▸ h)
  | true =>
    have hport : ∀ q u (s : State), (fun p => ∃ z, ((State.setPort q u s).zones.get z).Holds p) =
        fun p => ∃ z, (s.zones.get z).Holds p := fun _ _ _ => rfl
    have hclaim {q : Port} {r : Request} {work : State → State × Answer} (ho : r.owner = .zoneController)
        (ht : claim q r work s = .next t)
        (hw : ∀ s p, (∃ z, ((work s).1.zones.get z).Holds p) → (∃ z, (s.zones.get z).Holds p) ∨ p = q) :=
      engages_after_claim (H := fun s p => ∃ z, (s.zones.get z).Holds p) hport
        (fun s p h => (hw s p h).imp id fun hp => ⟨hp, ho⟩) ht h
    have hboth : (touchesZones c && !touchesPorts c) = true := by rw [hx, hc]; rfl
    cases c
    case sample | rebaseNotice | freezeNotice | thawNotice =>
      rcases of_exec_next (pathTaken_zones rfl s) ht with he | ⟨f, hf, he⟩ <;> rw [he] at h
      · exact .inl h
      · exact .inl (h.imp fun _ => Slot.Holds.of_evaluated hf)
    case defineZone => exact hclaim rfl ht fun _ _ h => defineZone_holds h
    case modifyZone => exact hclaim rfl ht fun _ _ h => .inl (modifyZone_zones_holds h)
    case deleteZone => exact hclaim rfl ht fun _ _ h => .inl (deleteZone_zones_holds h)
    case subscribeZone => exact hclaim rfl ht fun _ _ h => subscribeZone_holds h
    case unsubscribeZone => exact hclaim rfl ht fun _ _ h => .inl (unsubscribeZone_holds h)
    all_goals exact nomatch (show false = true from hboth)

/-! ### The capture unit -/

theorem CaptureUnit.write_cursor {mk : Word → CaptureRecord} {c : CaptureUnit} {p : Port}
    (h : ((c.write mk).cursors.get p).isSome = true) : (c.cursors.get p).isSome = true := by
  unfold CaptureUnit.write at h
  dsimp only at h
  split at h
  · exact h
  · simpa using h

/-- R125: only a request to the capture unit attaches a port's cursor. -/
theorem cursor_engages {c : Instr} {s t : State} (hc : touchesPorts c = false) (ht : exec c s = .next t) {p : Port}
    (h : (t.capture.cursors.get p).isSome = true) :
    (s.capture.cursors.get p).isSome = true ∨ inFlightTo .captureUnit (s.ports.get p).inFlight = true := by
  cases hx : touchesCapture c with
  | false => exact .inl (of_exec_next (Q := fun t => t.capture = s.capture) (keeps_capture c s hx) ht ▸ h)
  | true =>
    have hport : ∀ q u (s : State), (fun p => ((State.setPort q u s).capture.cursors.get p).isSome = true) =
        fun p => (s.capture.cursors.get p).isSome = true := fun _ _ _ => rfl
    have hclaim {q : Port} {r : Request} {work : State → State × Answer} (ho : r.owner = .captureUnit)
        (ht : claim q r work s = .next t)
        (hw : ∀ s p, ((work s).1.capture.cursors.get p).isSome = true → (s.capture.cursors.get p).isSome = true ∨ p = q) :=
      engages_after_claim (H := fun s p => (s.capture.cursors.get p).isSome = true) hport
        (fun s p h => (hw s p h).imp id fun hp => ⟨hp, ho⟩) ht h
    have hput {s : State} {q p : Port} {k : Option Cursor}
        (h : ((s.capture.cursors.put q k).get p).isSome = true) : (s.capture.cursors.get p).isSome = true ∨ p = q := by
      rcases isSome_get_put h with ⟨he, -⟩ | ⟨-, h⟩
      · exact .inr he
      · exact .inl h
    have hboth : (touchesCapture c && !touchesPorts c) = true := by rw [hx, hc]; rfl
    cases c
    case sample =>
      simp only [exec, execSample] at ht
      split at ht <;> injection ht with ht <;> subst ht <;> exact .inl h
    case latchSnapshotWrite =>
      simp only [exec, execLatchSnapshotWrite] at ht
      split at ht <;> injection ht with ht <;> subst ht
      · exact .inl h
      · exact .inl (CaptureUnit.write_cursor h)
    case zoneCaptureClaim =>
      simp only [exec, execZoneCaptureClaim] at ht
      split at ht <;> injection ht with ht <;> subst ht
      · exact .inl h
      · have hold := CaptureUnit.write_cursor h
        exact .inl hold
    case attachCursor => exact hclaim rfl ht fun _ _ h => hput h
    case detachCursor =>
      refine hclaim rfl ht fun s p h => ?_
      unfold detachCursor at h
      split at h
      · exact .inl h
      · exact hput h
    case readCaptures =>
      refine hclaim rfl ht fun s p h => ?_
      unfold readCaptures at h
      split at h
      · exact .inl h
      · split at h
        · exact .inl h
        · exact hput h
    all_goals exact nomatch (show false = true from hboth)

theorem Trigger.Holds.of_takeEdge {e : InputEdge} {now : Word} {axes : Table 4 AxisUnit} {t : Trigger} {p : Port}
    (h : (t.takeEdge e now axes).Holds p) : t.Holds p := by
  unfold Trigger.takeEdge at h
  dsimp only at h
  repeat' split at h
  all_goals exact h

/-- R115: what CONFIGURE TRIGGER stores is OFF or a record of the requester. -/
theorem configureTrigger_triggers (q : Port) (i : TrigIn) (e : Option EdgeSel) (axes : BitVec 4) (s : State) :
    (configureTrigger q i e axes s).1.triggers = s.triggers ∨
    ∃ cfg, (∀ c, cfg = some c → c.author = q) ∧
      (configureTrigger q i e axes s).1.triggers = s.triggers.put i { s.triggers.get i with config := cfg } := by
  have hsome (e : EdgeSel) : ∀ c, some { edge := e, axes := axes, author := q : TriggerConfig } = some c → c.author = q :=
    fun c hc => Option.some.inj hc ▸ rfl
  unfold configureTrigger
  dsimp only
  cases e with
  | none =>
    split
    · split
      · exact .inl rfl
      · exact .inr ⟨none, nofun, rfl⟩
    · exact .inr ⟨none, nofun, rfl⟩
  | some e =>
    dsimp only
    split
    · split_ifs
      · exact .inl rfl
      · exact .inl rfl
      · exact .inr ⟨_, hsome e, rfl⟩
    · split_ifs
      · exact .inl rfl
      · exact .inr ⟨_, hsome e, rfl⟩

theorem configureTrigger_holds {p q : Port} {i : TrigIn} {e : Option EdgeSel} {axes : BitVec 4} {s : State}
    (h : ∃ t', ((configureTrigger q i e axes s).1.triggers.get t').Holds p) :
    (∃ t', (s.triggers.get t').Holds p) ∨ p = q := by
  rcases configureTrigger_triggers q i e axes s with he | ⟨cfg, hcfg, he⟩ <;> rw [he] at h
  · exact .inl h
  · obtain ⟨t', h⟩ := h
    rcases holds_put (H := Trigger.Holds) h with h | ⟨-, c, hc, rfl⟩
    · exact .inl ⟨t', h⟩
    · exact .inr (hcfg c hc)

/-- R114: only a request to the capture unit makes a port author more triggers. -/
theorem triggers_engages {c : Instr} {s t : State} (hc : touchesPorts c = false) (ht : exec c s = .next t) {p : Port}
    (h : ∃ i, (t.triggers.get i).Holds p) :
    (∃ i, (s.triggers.get i).Holds p) ∨ inFlightTo .captureUnit (s.ports.get p).inFlight = true := by
  cases hx : touchesTriggers c with
  | false => exact .inl (of_exec_next (Q := fun t => t.triggers = s.triggers) (keeps_triggers c s hx) ht ▸ h)
  | true =>
    have hput {i : TrigIn} {u : Trigger} (hu : u.Holds p → (s.triggers.get i).Holds p)
        (h : ∃ t', ((s.triggers.put i u).get t').Holds p) : ∃ t', (s.triggers.get t').Holds p := by
      obtain ⟨t', h⟩ := h
      rcases holds_put (H := Trigger.Holds) h with h | ⟨-, hnew⟩
      · exact ⟨t', h⟩
      · exact ⟨i, hu hnew⟩
    have hboth : (touchesTriggers c && !touchesPorts c) = true := by rw [hx, hc]; rfl
    cases c
    case triggerEdge =>
      simp only [exec, execTriggerEdge] at ht
      split at ht <;> injection ht with ht <;> subst ht
      · exact .inl h
      · exact .inl (hput (fun h => h.of_takeEdge) h)
    case latchSnapshotWrite =>
      simp only [exec, execLatchSnapshotWrite] at ht
      split at ht <;> injection ht with ht <;> subst ht
      · exact .inl h
      · exact .inl (hput (u := { s.triggers.get _ with latch := none, dropped := false }) (fun h => h) h)
    case configureTrigger =>
      exact engages_after_claim (H := fun s p => ∃ i, (s.triggers.get i).Holds p) (fun _ _ _ => rfl)
        (fun s p h => (configureTrigger_holds h).imp id fun hp => ⟨hp, rfl⟩) ht h
    all_goals exact nomatch (show false = true from hboth)

end Sys2Proof.Machine
end

section
/-!
PROOFS. The law of the session, concluded: commands that are not a port unit's own, the stages of a teardown, transactions,
PRSTn and part reset; and the statement.
-/

namespace Sys2Proof.Machine

/-! ### Commands that are not a port unit's own -/

theorem PortsAfter.session {s t : State} (h : PortsAfter s t) (p : Port) :
    (t.ports.get p).session = (s.ports.get p).session ∧ (t.ports.get p).number = (s.ports.get p).number := by
  rcases h with h | ⟨q, r, aw, rest, a, _, h⟩ <;> rw [h]
  · exact ⟨rfl, rfl⟩
  · rw [State.answeredPorts, Table.get_put]
    split
    · next he => subst he; exact ⟨by simp, by simp⟩
    · exact ⟨rfl, rfl⟩

/-- What is in flight after an answer was in flight before. -/
theorem PortsAfter.inFlightTo {s t : State} (h : PortsAfter s t) {p : Port} {o : Owner}
    (hf : inFlightTo o (t.ports.get p).inFlight = true) : inFlightTo o (s.ports.get p).inFlight = true := by
  rcases h with h | ⟨q, r, aw, rest, a, hfly, h⟩ <;> rw [h] at hf
  · exact hf
  · rw [State.answeredPorts, Table.get_put] at hf
    split at hf
    · next he =>
      subst he
      obtain ⟨d, hd, ho⟩ := inFlightTo_iff.1 hf
      rw [PortUnit.receive_inFlight] at hd
      exact inFlightTo_iff.2 ⟨d, ((mem_of_pick hfly).2 d).2 (.inr hd), ho⟩
    · exact hf

/-- A port engages an owner after a command only if it engaged it before. -/
theorem engages_after {c : Instr} {s t : State} (hc : touchesPorts c = false) (ht : exec c s = .next t) {p : Port}
    {o : Owner} (h : t.Engages p o) : s.Engages p o := by
  rcases h with h | hf
  · cases o with
    | axisUnit ax => exact axis_engages hc ht h
    | zoneController =>
      rcases h with h | h
      · exact (lines_engages hc ht h).imp .inl id
      · exact (zones_engages hc ht h).imp .inr id
    | captureUnit =>
      rcases h with h | h
      · exact (cursor_engages hc ht h).imp .inl id
      · exact (triggers_engages hc ht h).imp .inr id
    | snapshotLatch | eventQueue | messageRelay => exact h.elim
  · exact .inr ((of_exec_next (ports_after c s hc) ht).inFlightTo hf)

/-! ### What each session allows -/

theorem may_opened (o : Owner) : Session.opened.may o = true := by cases o <;> rfl

theorem may_two {o : Owner} (ho : o ≠ .eventQueue) : (Session.closing .two).may o = true := by
  cases o with
  | eventQueue => exact absurd rfl ho
  | axisUnit | snapshotLatch | zoneController | captureUnit | messageRelay => rfl

theorem may_three {o : Owner} (h : (Session.closing .two).may o = true) (ho : o ≠ .messageRelay) :
    (Session.closing .three).may o = true := by
  cases o with
  | messageRelay => exact absurd rfl ho
  | eventQueue => exact nomatch h
  | axisUnit | snapshotLatch | zoneController | captureUnit => rfl

theorem may_four {o : Owner} (h : (Session.closing .three).may o = true) (ho : o ≠ .captureUnit) :
    (Session.closing (.four (.all 4 false))).may o = true := by
  cases o with
  | captureUnit => exact absurd rfl ho
  | eventQueue | messageRelay => exact nomatch h
  | axisUnit ax => simp [Session.may, Session.mayAxis]
  | snapshotLatch | zoneController => rfl

/-- R157: stage 5 is next exactly when every axis unit has taken its claim. -/
theorem nextStage_eq (taken : Table 4 Bool) :
    nextStage taken = if ∀ ax, taken.get ax = true then .five else .four taken := by
  have hall : taken.having id = List.finRange 4 ↔ ∀ ax, taken.get ax = true := by
    rw [Table.having, List.filter_eq_self]
    simp
  simp only [nextStage, hall]

theorem may_next {o : Owner} {taken : Table 4 Bool} {ax : Axis} (h : (Session.closing (.four taken)).may o = true)
    (ho : o ≠ .axisUnit ax) : (Session.closing (nextStage (taken.put ax true))).may o = true := by
  rw [nextStage_eq]
  cases o with
  | axisUnit ax' =>
    have hne : ax ≠ ax' := fun he => ho (by rw [he])
    have hfree : taken.get ax' = false := by simpa [Session.may, Session.mayAxis] using h
    have hkept : (taken.put ax true).get ax' = false := by rw [Table.get_put_other _ hne, hfree]
    rw [if_neg fun hall => absurd (hkept.symm.trans (hall ax')) (by decide)]
    simp [Session.may, Session.mayAxis, hkept]
  | eventQueue | captureUnit | messageRelay => exact nomatch h
  | snapshotLatch => rfl
  | zoneController => split <;> rfl

theorem may_six {o : Owner} (h : (Session.closing .five).may o = true) (ho : o ≠ .zoneController) :
    (Session.closing .six).may o = true := by
  cases o with
  | zoneController => exact absurd rfl ho
  | axisUnit | eventQueue | captureUnit | messageRelay => exact nomatch h
  | snapshotLatch => rfl

theorem may_closed {o : Owner} (h : (Session.closing .six).may o = true) : Session.closed.may o = true := by
  cases o with
  | zoneController | axisUnit | eventQueue | captureUnit | messageRelay => exact nomatch h
  | snapshotLatch => rfl

/-! ### The stages of a teardown -/

theorem PortUnit.stage_eq_some {u : PortUnit} {st : Stage} : u.stage = some st ↔ u.session = .closing st := by
  unfold PortUnit.stage
  cases u.session <;> simp

/-- R150, R157: when a stage may be taken. -/
theorem State.stageReady_iff {s : State} {p : Port} {st : Stage} {o : Owner} :
    s.stageReady p st o = true ↔
      (s.ports.get p).session = .closing st ∧ inFlightTo o (s.ports.get p).inFlight = false := by
  simp [State.stageReady, PortUnit.stage_eq_some]

/-- The law when one port unit is replaced and no port holds more. -/
theorem State.SessionLaw.setPort {s t : State} (h : s.SessionLaw) (hports : t.ports = s.ports)
    (hsub : ∀ q o, t.Holds q o → s.Holds q o) {p : Port} {u : PortUnit}
    (hu : ∀ o, t.Holds p o ∨ inFlightTo o u.inFlight = true → u.session.may o = true) : (t.setPort p u).SessionLaw := by
  rw [State.sessionLaw_iff] at h ⊢
  intro q o he
  have hh : t.Holds q o ∨ inFlightTo o (((t.setPort p u).ports.get q).inFlight) = true := he
  rw [State.setPort_ports, Table.get_put] at hh ⊢
  split at hh
  · next hq =>
    subst hq
    rw [if_pos rfl]
    exact hu o hh
  · next hq =>
    rw [if_neg hq, hports]
    rw [hports] at hh
    exact h q o (hh.imp (hsub q o) id)

/-- A stage taken at the owner `own`: what the port still holds elsewhere its next session allows. -/
theorem State.SessionLaw.toStage {s t : State} (h : s.SessionLaw) {p : Port} {ss : Session} {st : Stage} {own : Owner}
    (hss : (s.ports.get p).session = ss) (hfly : inFlightTo own (s.ports.get p).inFlight = false)
    (hports : t.ports = s.ports) (hsub : ∀ q o, t.Holds q o → s.Holds q o) (hgone : ¬ t.Holds p own)
    (hmay : ∀ o, ss.may o = true → o ≠ own → (Session.closing st).may o = true) : (t.toStage p st).SessionLaw := by
  refine h.setPort hports hsub fun o ho => ?_
  rw [hports] at ho
  refine hmay o (hss ▸ (s.sessionLaw_iff.1 h) p o (ho.imp (hsub p o) id)) ?_
  rintro rfl
  rcases ho with ho | ho
  · exact hgone ho
  · exact absurd (hfly.symm.trans ho) (by decide)

theorem State.SessionLaw.of_same {s t : State} (h : s.SessionLaw) (hports : t.ports = s.ports)
    (hsub : ∀ q o, t.Holds q o → s.Holds q o) : t.SessionLaw := by
  rw [State.sessionLaw_iff] at h ⊢
  intro q o he
  rw [hports]
  exact h q o (he.imp (hsub q o) fun hf => hports ▸ hf)

/-- R132: after stage 3 the port holds nothing with the capture unit. -/
theorem captureTearDown_holds {p q : Port} {s : State} {o : Owner} (h : (captureTearDown p s).Holds q o) :
    s.Holds q o ∧ (o = .captureUnit → q ≠ p) := by
  have htrigger (h : ∃ i, ((captureTearDown p s).triggers.get i).Holds q) : (∃ i, (s.triggers.get i).Holds q) ∧ q ≠ p := by
    obtain ⟨i, c, hc, rfl⟩ := h
    simp only [captureTearDown_triggers, Table.get_mapIdx, Trigger.tearDown] at hc
    split at hc
    · next c' hc' =>
      split at hc
      · cases hc
      · next hne => exact ⟨⟨i, c, hc, rfl⟩, Option.some.inj (hc'.symm.trans hc) ▸ hne⟩
    · next hc' => exact nomatch hc'.symm.trans hc
  have hcursor (h : ((captureTearDown p s).capture.cursors.get q).isSome = true) :
      (s.capture.cursors.get q).isSome = true ∧ q ≠ p := by
    rcases isSome_get_put h with ⟨-, hno⟩ | ⟨hne, hc⟩
    · cases hno
    · exact ⟨hc, hne⟩
  cases o with
  | captureUnit =>
    rcases h with h | h
    · exact ⟨.inl (hcursor h).1, fun _ => (hcursor h).2⟩
    · exact ⟨.inr (htrigger h).1, fun _ => (htrigger h).2⟩
  | axisUnit | zoneController => exact ⟨h, nofun⟩
  | snapshotLatch | eventQueue | messageRelay => exact h.elim

/-- R91: after stage 5 the port neither holds the lease of an output nor waits for it. -/
theorem Output.Holds.of_tearDown {p q : Port} {out : Output} (h : (out.tearDown p).Holds q) : out.Holds q ∧ q ≠ p := by
  have hne (w : Waiter) (hw : w ∈ withoutWaiter p out.waiters) : w.port ≠ p := by
    simp only [withoutWaiter, List.mem_filter, decide_eq_true_eq] at hw
    exact hw.2
  unfold Output.tearDown at h
  dsimp only at h
  split at h
  · refine ⟨h.of_endLease.of_withoutWaiter.1, ?_⟩
    rw [Output.endLease_eq] at h
    rcases h with ⟨l, hl, rfl⟩ | ⟨w, hw, rfl⟩
    · obtain ⟨w, hw, rfl⟩ := Option.map_eq_some_iff.1 hl
      exact hne w (List.mem_of_head? hw)
    · exact hne w (List.mem_of_mem_tail hw)
  · next hheld =>
    refine ⟨h.of_withoutWaiter.1, fun he => hheld ?_⟩
    exact Output.heldBy_iff.2 (h.of_withoutWaiter.2 he)

/-- R52, R68: after stage 5 the port neither authors the zone of a slot nor subscribes to it. -/
theorem Slot.Holds.of_tearDown {p q : Port} {sl : Slot} (h : (sl.tearDown p).Holds q) : sl.Holds q ∧ q ≠ p := by
  unfold Slot.tearDown Slot.authoredBy Slot.unsubscribe at h
  cases hz : sl.zone with
  | none =>
    simp only [hz] at h
    obtain ⟨zn, hno, -⟩ := h
    cases hno
  | some zn =>
    simp only [hz, Option.map_some] at h
    split at h
    · obtain ⟨zn', hno, -⟩ := h
      cases hno
    · next ha =>
      have hu := h.of_unsubscribed hz
      exact ⟨hu.1, fun he => ha (decide_eq_true (hu.2 he))⟩

theorem zoneTearDown_holds {p q : Port} {s : State} {o : Owner} (h : (zoneTearDown p s).Holds q o) :
    s.Holds q o ∧ (o = .zoneController → q ≠ p) := by
  cases o with
  | zoneController =>
    rcases h with ⟨o, h⟩ | ⟨z, h⟩
    · have hout : ((s.outputs.get o).tearDown p).Holds q := by
        simp only [zoneTearDown, State.hand_outputs, State.commitOutputs_outputs, unmapped, Table.get_mapIdx] at h
        split at h <;> exact h.of_same rfl rfl
      exact ⟨.inl ⟨o, hout.of_tearDown.1⟩, fun _ => hout.of_tearDown.2⟩
    · rw [zoneTearDown_zones, Table.get_mapIdx] at h
      exact ⟨.inr ⟨z, h.of_tearDown.1⟩, fun _ => h.of_tearDown.2⟩
  | axisUnit ax =>
    refine ⟨?_, nofun⟩
    change ((zoneTearDown p s).axes.get ax).Holds q at h
    rwa [zoneTearDown_axes] at h
  | captureUnit =>
    refine ⟨?_, nofun⟩
    change ((zoneTearDown p s).capture.cursors.get q).isSome = true ∨
      ∃ t, ((zoneTearDown p s).triggers.get t).Holds q at h
    rwa [zoneTearDown_capture, zoneTearDown_triggers] at h
  | snapshotLatch | eventQueue | messageRelay => exact h.elim

/-- R37: stage 4 at one axis unit. -/
theorem axisTearDown_holds {p q : Port} {ax : Axis} {s : State} {o : Owner}
    (h : (s.axisStep ax ((s.axes.get ax).tearDown ax s.timebase p)).Holds q o) :
    s.Holds q o ∧ (o = .axisUnit ax → q ≠ p) := by
  cases o with
  | axisUnit ax' =>
    change ((s.axes.put ax _).get ax').Holds q at h
    rw [Table.get_put] at h
    split at h
    · next he =>
      subst he
      exact ⟨h.of_tearDown.2, fun _ => h.of_tearDown.1⟩
    · next he => exact ⟨h, fun hax => absurd (Owner.axisUnit.inj hax).symm he⟩
  | zoneController | captureUnit => exact ⟨h, nofun⟩
  | snapshotLatch | eventQueue | messageRelay => exact h.elim

/-! ### Sessions opened and closed -/

theorem State.SessionLaw.startTeardown_setPort {s : State} (h : s.SessionLaw) (p : Port) (u : PortUnit) :
    (startTeardown p (s.setPort p u)).SessionLaw := by
  rw [Machine.startTeardown_setPort]
  refine State.SessionLaw.of_same (s := s.setPort p _) (h.setPort rfl (fun _ _ => id) fun o ho => may_two ?_) rfl
    fun _ _ => id
  rintro rfl
  rcases ho with ho | ho
  · exact ho
  · obtain ⟨d, hd, howner⟩ := inFlightTo_iff.1 ho
    rw [List.mem_filter, decide_eq_true_eq] at hd
    exact hd.2 howner

/-- The law when a port unit keeps its session and has no more in flight. -/
theorem State.SessionLaw.setPort_quiet {s : State} (h : s.SessionLaw) {p : Port} {u : PortUnit}
    (hs : u.session = (s.ports.get p).session)
    (hf : ∀ o, inFlightTo o u.inFlight = true → inFlightTo o (s.ports.get p).inFlight = true) :
    (s.setPort p u).SessionLaw :=
  h.setPort rfl (fun _ _ => id) fun o ho => hs ▸ s.sessionLaw_iff.1 h p o (ho.imp id (hf o))

theorem State.SessionLaw.transaction {s t : State} {p : Port} (h : s.SessionLaw) (ht : TransactionDone p s t) :
    t.SessionLaw := by
  cases ht with
  | nothing => exact h
  | quiet hq => exact h.setPort_quiet hq.session fun o ho => hq.inFlight ▸ ho
  | dispatched code tag note r miso hopen hfree =>
    exact h.setPort rfl (fun _ _ => id) fun o _ => by
      change (s.ports.get p).session.may o = true
      rw [hopen]
      exact may_opened o
  | opened r miso hclosed hfree =>
    exact State.SessionLaw.of_same (s := s.setPort p _)
      (h.setPort rfl (fun _ _ => id) fun o _ => may_opened o) rfl fun _ _ => id
  | closed code tag note miso hopen hfree => exact h.startTeardown_setPort ..

/-- R159: after part reset no port holds anything or has anything in flight. -/
theorem resetBlocks_sessionLaw {s t : State} (hports : t.ports = s.resetBlocks.ports) (haxes : t.axes = s.resetBlocks.axes)
    (hzones : t.zones = s.resetBlocks.zones) (houts : t.outputs = s.resetBlocks.outputs)
    (hcap : t.capture = s.resetBlocks.capture) (htrig : t.triggers = s.resetBlocks.triggers) : t.SessionLaw := by
  exact
    { flights := fun p d hd => by
        rw [hports] at hd
        simp [State.resetBlocks, PortUnit.reset] at hd
      holders := fun o l hl => by
        rw [houts] at hl
        simp [State.resetBlocks, Output.reset] at hl
      waiters := fun o w hw => by
        rw [houts] at hw
        simp [State.resetBlocks, Output.reset] at hw
      authors := fun z zn hz => by
        rw [hzones] at hz
        simp [State.resetBlocks, Slot.reset] at hz
      zoneSubscribers := fun z zn p hz _ => by
        rw [hzones] at hz
        simp [State.resetBlocks, Slot.reset] at hz
      axisSubscribers := fun ax p hs => by
        rw [haxes] at hs
        simp [State.resetBlocks, AxisUnit.reset] at hs
      aligners := fun ax a ha => by
        rw [haxes] at ha
        simp [State.resetBlocks, AxisUnit.reset] at ha
      cursors := fun p k hk => by
        rw [hcap] at hk
        simp [State.resetBlocks, CaptureUnit.reset] at hk
      triggers := fun i c hc => by
        rw [htrig] at hc
        simp [State.resetBlocks, Trigger.reset] at hc }

theorem State.SessionLaw.exec (c : Instr) (s t : State) (h : s.SessionLaw) (ht : exec c s = .next t) : t.SessionLaw := by
  cases hc : touchesPorts c with
  | false =>
    rw [State.sessionLaw_iff] at h ⊢
    intro p o he
    rw [((of_exec_next (ports_after c s hc) ht).session p).1]
    exact h p o (engages_after hc ht he)
  | true =>
    cases c
    case put | get | peek | voidTransaction | identify | openSession | closeSession =>
      exact of_exec_next ((transaction_done rfl s).imp fun _ hd => ⟨hd.1, h.transaction hd.2⟩) ht
    case teardownStage2 =>
      injection ht with ht
      subst ht
      split
      · next hready =>
        obtain ⟨hss, hfly⟩ := State.stageReady_iff.1 hready
        exact h.toStage hss hfly rfl (fun _ _ => id) (fun hno => hno) fun _ => may_three
      · exact h
    case teardownStage3 =>
      injection ht with ht
      subst ht
      split
      · next hready =>
        obtain ⟨hss, hfly⟩ := State.stageReady_iff.1 hready
        exact h.toStage hss hfly rfl (fun _ _ hh => (captureTearDown_holds hh).1)
          (fun hh => (captureTearDown_holds hh).2 rfl rfl) fun _ => may_four
      · exact h
    case teardownStage4 =>
      simp only [Machine.exec, execTeardownStage4] at ht
      split at ht
      · next taken hst =>
        split at ht <;> injection ht with ht <;> subst ht
        · next hready =>
          simp only [Bool.and_eq_true, Bool.not_eq_true'] at hready
          exact h.toStage (PortUnit.stage_eq_some.1 hst) hready.2 rfl (fun _ _ hh => (axisTearDown_holds hh).1)
            (fun hh => (axisTearDown_holds hh).2 rfl rfl) fun _ => may_next
        · exact h
      · injection ht with ht
        exact ht ▸ h
    case teardownStage5 =>
      injection ht with ht
      subst ht
      split
      · next hready =>
        obtain ⟨hss, hfly⟩ := State.stageReady_iff.1 hready
        exact h.toStage hss hfly (zoneTearDown_ports ..) (fun _ _ hh => (zoneTearDown_holds hh).1)
          (fun hh => (zoneTearDown_holds hh).2 rfl rfl) fun _ => may_six
      · exact h
    case teardownStage6 p =>
      injection ht with ht
      subst ht
      split
      · next hst =>
        have hended : (s.ports.get p).ended.session = .closed ∧ (s.ports.get p).ended.inFlight = (s.ports.get p).inFlight := by
          unfold PortUnit.ended
          dsimp only
          split <;> simp
        refine h.setPort rfl (fun _ _ => id) fun o ho => ?_
        rw [hended.2] at ho
        rw [hended.1]
        exact may_closed (PortUnit.stage_eq_some.1 hst ▸ s.sessionLaw_iff.1 h p o ho)
      · exact h
    case prstnAssert p =>
      simp only [Machine.exec, execPrstnAssert] at ht
      split at ht <;> injection ht with ht <;> subst ht
      · exact h
      · split
        · exact h.startTeardown_setPort ..
        · exact h.setPort_quiet rfl fun o ho => by
            obtain ⟨d, hd, howner⟩ := inFlightTo_iff.1 ho
            obtain ⟨d', hd', rfl⟩ := List.mem_map.1 hd
            exact inFlightTo_iff.2 ⟨d', hd', howner⟩
    case prstnRelease =>
      injection ht with ht
      subst ht
      exact h.setPort_quiet rfl fun _ => id
    case rstnAssert | supplyBelowRange =>
      injection ht with ht
      subst ht
      exact resetBlocks_sessionLaw (s := s) rfl rfl rfl rfl rfl rfl
    all_goals exact nomatch (show false = true from hc)

/-- A microsecond gives no port anything to hold. -/
theorem State.SessionLaw.microsecond {s : State} (h : s.SessionLaw) : s.microsecond.SessionLaw := by
  rcases microsecond_cases s with ⟨_, he⟩ | ⟨_, _, he⟩ | ⟨_, _, he⟩ <;> rw [he]
  · exact h
  · refine h.of_same rfl fun q o hh => ?_
    cases o with
    | zoneController => exact hh.imp (fun ⟨o, ho⟩ => ⟨o, Output.Holds.of_tick (by simpa using ho)⟩) id
    | axisUnit | captureUnit => exact hh
    | snapshotLatch | eventQueue | messageRelay => exact hh.elim
  · exact h.of_same rfl fun _ _ => id

end Sys2Proof.Machine

namespace Sys2Proof.LawsKept

open Machine

/-- Settles O54: a port engages an owner only by its own request, which its session allows; each stage of a teardown ends
what the port holds with its owner before the session forbids it. -/
theorem sessionLawKept : Obligations.SessionLawKept :=
  step_keeps (fun _ _ h => h.of_same rfl fun _ _ => id) (fun _ h => h.microsecond) State.SessionLaw.exec

end Sys2Proof.LawsKept
end

section
/-!
PROOFS. The law of the event queue (R95, R99–R103, R112): appending, acknowledging, opening and closing a queue, and the
agreement of a queue with the session of its port.
-/

namespace Sys2Proof.Machine

/-! ### The numbers of a queue -/

theorem endsBefore_append {w : Nat} {l : List (BitVec w)} {n : BitVec w} (h : endsBefore l n) :
    endsBefore (l ++ [n]) (n + 1) := by
  induction l with
  | nil => exact rfl
  | cons x xs ih =>
    cases xs with
    | nil => exact ⟨h, rfl⟩
    | cons y ys => exact ⟨h.1, ih h.2⟩

theorem endsBefore_drop {w : Nat} {l : List (BitVec w)} {n : BitVec w} (h : endsBefore l n) (k : Nat) :
    endsBefore (l.drop k) n := by
  induction k generalizing l with
  | zero => exact h
  | succ k ih =>
    cases l with
    | nil => exact trivial
    | cons x xs =>
      refine ih (l := xs) ?_
      cases xs with
      | nil => exact trivial
      | cons y ys => exact h.2

/-- A change of the last entry that keeps a part of it keeps that part of the list. -/
theorem map_mapLast {α β : Type} {f : α → α} {g : α → β} (h : ∀ x, g (f x) = g x) (l : List α) :
    (mapLast f l).map g = l.map g := by
  induction l with
  | nil => rfl
  | cons x xs ih =>
    cases xs with
    | nil => simp [mapLast, h]
    | cons y ys => simpa [mapLast] using ih

theorem mapLast_eq {α : Type} (f : α → α) (l : List α) : mapLast f l = l.dropLast ++ (l.getLast?.map f).toList := by
  induction l with
  | nil => rfl
  | cons x xs ih =>
    cases xs with
    | nil => rfl
    | cons y ys => simp [mapLast, ih]

theorem mapLast_concat {α : Type} (f : α → α) (l : List α) (x : α) : mapLast f (l ++ [x]) = l ++ [f x] := by
  simp [mapLast_eq]

@[simp] theorem length_mapLast {α : Type} (f : α → α) (l : List α) : (mapLast f l).length = l.length := by
  simpa using congrArg List.length (map_mapLast (g := fun _ => ()) (f := f) (fun _ => rfl) l)

@[simp] theorem mapLast_isEmpty {α : Type} (f : α → α) (l : List α) : (mapLast f l).isEmpty = l.isEmpty := by
  rw [Bool.eq_iff_iff, List.isEmpty_iff_length_eq_zero, List.isEmpty_iff_length_eq_zero, length_mapLast]

@[simp] theorem EventRecord.sealMarker_sequence (r : EventRecord) : r.sealMarker.sequence = r.sequence := by
  unfold EventRecord.sealMarker
  split <;> rfl

theorem lastIsMarker_append (l : List EventRecord) (r : EventRecord) :
    lastIsMarker (l ++ [r]) = (r.event.kind == .overflow) := by
  simp [lastIsMarker]

/-- R100: counting a drop leaves the marker a marker. -/
theorem lastIsMarker_countDrop (l : List EventRecord) :
    lastIsMarker (mapLast EventRecord.countDrop l) = lastIsMarker l := by
  rcases List.eq_nil_or_concat l with rfl | ⟨init, r, rfl⟩
  · rfl
  · rw [List.concat_eq_append, mapLast_concat, lastIsMarker_append, lastIsMarker_append]
    rfl

/-! ### The law of one queue -/

/-- A queue with the records, numbers and flags of another keeps its law, whatever is on its way to it. -/
theorem EventQueue.Law.of_same {q q' : EventQueue} (h : q.Law) (hr : q'.records = q.records) (hn : q'.next = q.next)
    (ho : q'.isOpen = q.isOpen) (ha : q'.attention = q.attention) (hp : q'.attn = q.attn) : q'.Law where
  capacity := hr ▸ h.capacity
  numbered := by rw [hr, hn]; exact h.numbered
  emptyClosed := by rw [ho, hr]; exact h.emptyClosed
  attnFollows := by rw [hp, h.attnFollows]; simp [EventQueue.attnCondition, hr, ho, ha]

/-- R112: a queue that has driven ATTNn meets its law when the rest of it does. -/
theorem EventQueue.law_driveAttn {q : EventQueue}
    (hc : q.records.length ≤ 31 ∨ (q.records.length = 32 ∧ lastIsMarker q.records = true))
    (hn : endsBefore (q.records.map EventRecord.sequence) q.next) (he : q.isOpen = false → q.records = []) :
    q.driveAttn.Law := ⟨hc, hn, he, rfl⟩

theorem EventQueue.Law.append {q : EventQueue} (h : q.Law) (now : Word) (e : Event) : (q.append now e).Law := by
  unfold EventQueue.append
  cases ho : q.isOpen with
  | false => exact h
  | true =>
    simp only [Bool.not_true, Bool.false_eq_true, if_false]
    split
    · next hlen =>
      unfold Config.queueOrdinary at hlen
      refine EventQueue.law_driveAttn (.inl ?_) ?_ nofun
      · simp only [EventQueue.push, List.length_append, length_mapLast, List.length_singleton]
        omega
      · simp only [EventQueue.push, List.map_append, map_mapLast EventRecord.sealMarker_sequence]
        exact endsBefore_append h.numbered
    · next hlen =>
      unfold Config.queueOrdinary at hlen
      split
      · next hmark =>
        refine EventQueue.law_driveAttn ?_ ?_ nofun
        · simp only [length_mapLast, lastIsMarker_countDrop]
          exact h.capacity
        · simp only [map_mapLast (f := EventRecord.countDrop) (g := EventRecord.sequence) fun _ => rfl]
          exact h.numbered
      · next hmark =>
        have hfull : q.records.length = 31 := by
          rcases h.capacity with hc | ⟨_, hm⟩
          · omega
          · exact absurd hm hmark
        refine EventQueue.law_driveAttn (.inr ⟨?_, ?_⟩) ?_ fun hn => absurd (ho.symm.trans hn) (by decide)
        · simp [EventQueue.push, hfull]
        · exact lastIsMarker_append _ _
        · simp only [EventQueue.push, List.map_append]
          exact endsBefore_append h.numbered

@[simp] theorem EventQueue.append_isOpen (now : Word) (e : Event) (q : EventQueue) :
    (q.append now e).isOpen = q.isOpen := by
  unfold EventQueue.append
  split_ifs <;> rfl

/-- R105: records removed from the head. -/
theorem EventQueue.Law.removed {q : EventQueue} (h : q.Law) (k : Nat) (hk : 1 ≤ k) :
    (EventQueue.driveAttn { q with records := q.records.drop k }).Law := by
  refine EventQueue.law_driveAttn (.inl ?_) ?_ fun ho => ?_
  · have hlen : q.records.length ≤ 32 := h.capacity.elim (by omega) fun hc => hc.1.le
    simp only [List.length_drop]
    omega
  · rw [List.map_drop]
    exact endsBefore_drop h.numbered k
  · simp [h.emptyClosed ho]

theorem ackCount_pos {n : BitVec 16} {l : List EventRecord} {k : Nat} (h : ackCount n l = some k) : 1 ≤ k := by
  unfold ackCount at h
  split at h
  · cases h
  · dsimp only at h
    split at h
    · injection h with h
      omega
    · cases h

/-- R111: another setting of the attention enable. -/
theorem EventQueue.Law.withAttention {q : EventQueue} (h : q.Law) (b : Bool) :
    (EventQueue.driveAttn { q with attention := b }).Law := EventQueue.law_driveAttn h.capacity h.numbered h.emptyClosed

/-- R99, R108: a closed queue opened: it holds nothing, so that its numbers begin afresh. -/
theorem EventQueue.Law.opened {q : EventQueue} (h : q.Law) (hc : q.isOpen = false) : q.opened.Law := by
  have hnil := h.emptyClosed hc
  refine EventQueue.law_driveAttn (.inl ?_) ?_ nofun
  · simp [hnil]
  · simp only [hnil]
    exact trivial

/-- R95: an event queue after part reset is empty and CLOSED. -/
theorem EventQueue.law_reset : EventQueue.reset.Law := ⟨.inl (Nat.zero_le _), trivial, fun _ => rfl, rfl⟩

theorem EventQueue.closed_law (q : EventQueue) : q.closed.Law :=
  EventQueue.law_driveAttn (.inl (Nat.zero_le _)) trivial fun _ => rfl

/-! ### The queues of the part -/

/-- The queues after a change that reaches the law of none of them. -/
def QueuesKept (s t : State) : Prop :=
  ∀ p, (t.queues.get p).records = (s.queues.get p).records ∧ (t.queues.get p).next = (s.queues.get p).next ∧
    (t.queues.get p).isOpen = (s.queues.get p).isOpen ∧ (t.queues.get p).attention = (s.queues.get p).attention ∧
    (t.queues.get p).attn = (s.queues.get p).attn

theorem QueuesKept.refl (s : State) : QueuesKept s s := fun _ => ⟨rfl, rfl, rfl, rfl, rfl⟩

theorem QueuesKept.of_eq {s t : State} (h : t.queues = s.queues) : QueuesKept s t :=
  fun _ => h ▸ ⟨rfl, rfl, rfl, rfl, rfl⟩

/-- R98: handing records over changes only what is on its way. -/
theorem QueuesKept.of_received {s t : State} {src : Producer} {es : List (Port × Event)}
    (h : t.queues = s.queues.mapIdx fun p q => q.receive src (eventsFor p es)) : QueuesKept s t := by
  intro p
  rw [h, Table.get_mapIdx]
  exact ⟨rfl, rfl, rfl, rfl, rfl⟩

theorem QueuesKept.of_hand {s t : State} {src : Producer} {es : List (Port × Event)} (h : t.queues = s.queues) :
    QueuesKept s (t.hand src es) := .of_received (h ▸ State.hand_queues src es t)

/-- The commands that can change more of an event queue than what is on its way to it. -/
def touchesQueues : Instr → Bool
  | .rstnAssert | .supplyBelowRange | .put .. | .get .. | .peek .. | .voidTransaction .. | .identify ..
  | .openSession .. | .closeSession .. | .prstnAssert .. | .eventAppend .. | .ackEvents .. | .setAttention .. => true
  | _ => false

theorem claim_queues {p : Port} {r : Request} {work : State → State × Answer} (hw : ∀ s, QueuesKept s (work s).1)
    (s : State) : ∃ t, claim p r work s = .next t ∧ QueuesKept s t := by
  rcases claim_cases p r work s with h | ⟨aw, rest, _, h⟩
  · exact ⟨_, h, .refl s⟩
  · exact ⟨_, h, hw (s.withInFlight p rest)⟩

theorem takeExpiry_queues (o : Line) (s : State) : QueuesKept s (takeExpiry o s) := by
  unfold takeExpiry
  dsimp only
  repeat' split
  all_goals simp [QueuesKept, EventQueue.receive, State.endLease, State.setOutput]

@[simp] theorem State.begin_queues (s : State) : s.begin.queues = s.queues := by
  unfold State.begin
  split <;> rfl

theorem zoneTearDown_queues (p : Port) (s : State) : QueuesKept s (zoneTearDown p s) := by
  unfold zoneTearDown
  exact .of_hand (State.commitOutputs_queues _ _)

theorem relayTearDown_queues (p : Port) (s : State) : QueuesKept s (relayTearDown p s) :=
  .of_hand rfl

/-- The requests to an output's line that leave every queue as it is but for what is on its way to it. -/
def lineRequest : Instr → Bool
  | .claimOutput .. | .renewLease .. | .releaseOutput .. | .cancelWait .. | .mapOutput .. | .forceOutput ..
  | .configureOutput .. | .readOutputs .. => true
  | _ => false

/-- The requests to the zone controller. -/
def zoneRequest : Instr → Bool
  | .defineZone .. | .modifyZone .. | .deleteZone .. | .readZone .. | .listZones .. | .subscribeZone ..
  | .unsubscribeZone .. => true
  | _ => false

theorem axisRequest_queues {c : Instr} {pa : Port × Axis} (hc : axisRequest c = some pa) (s : State) :
    ∃ t, exec c s = .next t ∧ QueuesKept s t := by
  cases c
  case configureAxis | start | stop | resume | setOffset | subscribeAxis | unsubscribeAxis | align | cancelAlign =>
    refine claim_queues (fun s => ?_) s
    simp only [configureAxis, startAxis, stopAxis, resumeAxis, setOffset, subscribeAxis, unsubscribeAxis, alignAxis,
      cancelAlign]
    repeat' split
    all_goals simp [QueuesKept, EventQueue.receive]
  all_goals exact nomatch hc

theorem zoneRequest_queues {c : Instr} (hc : zoneRequest c = true) (s : State) :
    ∃ t, exec c s = .next t ∧ QueuesKept s t := by
  cases c
  case defineZone | modifyZone | deleteZone | readZone | listZones | subscribeZone | unsubscribeZone =>
    refine claim_queues (fun s => ?_) s
    simp only [defineZone, modifyZone, deleteZone, readZone, listZones, subscribeZone, unsubscribeZone]
    repeat' split
    all_goals simp [QueuesKept, EventQueue.receive]
  all_goals exact nomatch (show false = true from hc)

theorem lineRequest_queues {c : Instr} (hc : lineRequest c = true) (s : State) :
    ∃ t, exec c s = .next t ∧ QueuesKept s t := by
  cases c
  case claimOutput | renewLease | releaseOutput | cancelWait | mapOutput | forceOutput | configureOutput | readOutputs =>
    refine claim_queues (fun s => ?_) s
    simp only [claimOutput, renewLease, releaseOutput, cancelWait, mapOutput, forceOutput, configureOutput, readOutputs]
    repeat' split
    all_goals simp [QueuesKept, EventQueue.receive, State.endLease, State.setOutput, State.holderChange]
  all_goals exact nomatch (show false = true from hc)

/-- R95, R98: every other command leaves the queues as they are, but for what is on its way to them. -/
theorem keeps_queues (c : Instr) (s : State) (hc : touchesQueues c = false) :
    ∃ t, exec c s = .next t ∧ QueuesKept s t := by
  cases c
  case configureAxis | start | stop | resume | setOffset | subscribeAxis | unsubscribeAxis | align | cancelAlign =>
    exact axisRequest_queues rfl s
  case defineZone | modifyZone | deleteZone | readZone | listZones | subscribeZone | unsubscribeZone =>
    exact zoneRequest_queues rfl s
  case claimOutput | renewLease | releaseOutput | cancelWait | mapOutput | forceOutput | configureOutput | readOutputs =>
    exact lineRequest_queues rfl s
  case readAxes => exact claim_queues (fun s => .refl s) s
  case fetchEvents | configureTrigger | attachCursor | detachCursor | readCaptures | postMessage | takeMessage
      | withdrawMessage =>
    refine claim_queues (fun s => ?_) s
    simp only [fetchEvents, configureTrigger, attachCursor, detachCursor, readCaptures, postMessage, takeMessage,
      withdrawMessage]
    repeat' split
    all_goals simp [QueuesKept, EventQueue.receive]
  case sample | rebaseNotice | freezeNotice | thawNotice =>
    simp only [exec, execSample, execRebaseNotice, execFreezeNotice, execThawNotice]
    split
    · exact ⟨_, rfl, .of_received rfl⟩
    · exact ⟨_, rfl, .refl s⟩
  case encoderStep | skippedState | indexPulse => exact ⟨_, rfl, .of_received rfl⟩
  case lineFaultRise =>
    simp only [exec, execLineFaultRise]
    split
    · exact ⟨_, rfl, .refl s⟩
    · exact ⟨_, rfl, .of_received rfl⟩
  case lineFaultFall | prstnRelease | oholdChange => exact ⟨_, rfl, .refl s⟩
  case latchSnapshotWrite =>
    simp only [exec, execLatchSnapshotWrite]
    split
    · exact ⟨_, rfl, .refl s⟩
    · exact ⟨_, rfl, .of_received rfl⟩
  case zoneCaptureClaim =>
    simp only [exec, execZoneCaptureClaim]
    split
    · exact ⟨_, rfl, .refl s⟩
    · exact ⟨_, rfl, .of_received rfl⟩
  case triggerEdge =>
    simp only [exec, execTriggerEdge]
    split <;> exact ⟨_, rfl, .refl s⟩
  case leaseExpiry =>
    simp only [exec, execLeaseExpiry]
    split
    · exact ⟨_, rfl, takeExpiry_queues _ s⟩
    · exact ⟨_, rfl, .refl s⟩
  case leaseTick =>
    refine ⟨_, rfl, ?_⟩
    split <;> exact .refl s
  case rstnRelease =>
    simp only [exec, execRstnRelease]
    split
    · exact ⟨_, rfl, .of_eq (State.begin_queues _)⟩
    · exact ⟨_, rfl, .refl s⟩
  case supplyReturnToRange =>
    simp only [exec, execSupplyReturnToRange]
    split
    · exact ⟨_, rfl, .refl s⟩
    · exact ⟨_, rfl, .of_eq (State.begin_queues _)⟩
  case startupPeriodEnd =>
    simp only [exec, execStartupPeriodEnd]
    split <;> exact ⟨_, rfl, .refl s⟩
  case teardownStage2 =>
    refine ⟨_, rfl, ?_⟩
    split
    · exact relayTearDown_queues _ s
    · exact .refl s
  case teardownStage3 =>
    refine ⟨_, rfl, ?_⟩
    split <;> exact .refl s
  case teardownStage4 =>
    simp only [exec, execTeardownStage4]
    split
    · split
      · exact ⟨_, rfl, .of_received rfl⟩
      · exact ⟨_, rfl, .refl s⟩
    · exact ⟨_, rfl, .refl s⟩
  case teardownStage5 =>
    refine ⟨_, rfl, ?_⟩
    split
    · exact zoneTearDown_queues _ s
    · exact .refl s
  case teardownStage6 =>
    refine ⟨_, rfl, ?_⟩
    split <;> exact .refl s
  all_goals exact nomatch (show true = false from hc)

/-! ### The queue and the session -/

/-- The law of the queue of one port, and its agreement with the session (R95). -/
def State.QueueAgrees (s : State) (p : Port) : Prop :=
  (s.queues.get p).Law ∧ ((s.queues.get p).isOpen = true ↔ (s.ports.get p).session = .opened)

theorem State.QueueAgrees.of_kept {s t : State} {p : Port} (h : s.QueueAgrees p) (hq : QueuesKept s t)
    (hs : (t.ports.get p).session = .opened ↔ (s.ports.get p).session = .opened) : t.QueueAgrees p := by
  obtain ⟨hr, hn, ho, ha, hp⟩ := hq p
  exact ⟨h.1.of_same hr hn ho ha hp, by rw [ho, hs]; exact h.2⟩

/-- One port unit and one queue replaced. -/
theorem State.QueueLaw.replace {s : State} (h : s.QueueLaw) {p : Port} {u : PortUnit} {q : EventQueue} (hq : q.Law)
    (hu : q.isOpen = true ↔ u.session = .opened) : ((s.setPort p u).setQueue p q).QueueLaw := by
  intro p'
  simp only [State.setQueue_queues, State.setPort_queues, State.setQueue_ports, State.setPort_ports, Table.get_put]
  split
  · exact ⟨hq, hu⟩
  · exact h p'

/-- One port unit replaced, whose session is OPEN exactly when it was. -/
theorem State.QueueLaw.setPort {s : State} (h : s.QueueLaw) {p : Port} {u : PortUnit}
    (hu : u.session = .opened ↔ (s.ports.get p).session = .opened) : (s.setPort p u).QueueLaw := by
  have hrep := h.replace (p := p) (u := u) (h p).1 (by rw [hu]; exact (h p).2)
  intro p'
  simpa [State.setPort, State.setQueue] using hrep p'

theorem State.QueueLaw.startTeardown_setPort {s : State} (h : s.QueueLaw) (p : Port) (u : PortUnit) :
    (startTeardown p (s.setPort p u)).QueueLaw := by
  rw [Machine.startTeardown_setPort]
  exact h.replace (EventQueue.closed_law _) (iff_of_false nofun nofun)

theorem State.QueueLaw.transaction {s t : State} {p : Port} (h : s.QueueLaw) (ht : TransactionDone p s t) : t.QueueLaw := by
  cases ht with
  | nothing => exact h
  | quiet hq => exact h.setPort (by rw [hq.session])
  | dispatched => exact h.setPort .rfl
  | opened r miso hclosed hfree =>
    have hc : (s.queues.get p).isOpen = false := by
      rw [Bool.eq_false_iff, ne_eq, (h p).2, hclosed]
      nofun
    exact h.replace ((h p).1.opened hc) (iff_of_true rfl rfl)
  | closed => exact h.startTeardown_setPort _ _

/-- A queue replaced by one that meets the law and is OPEN as it was. -/
theorem State.QueueLaw.setQueue {s : State} (h : s.QueueLaw) {p : Port} {q : EventQueue} (hq : q.Law)
    (ho : q.isOpen = (s.queues.get p).isOpen) : (s.setQueue p q).QueueLaw := by
  have hrep := h.replace (p := p) (u := s.ports.get p) hq (by rw [ho]; exact (h p).2)
  intro p'
  simpa [State.setPort, State.setQueue] using hrep p'

/-- The commands that leave the session of every port as it was, or end a session already closing. -/
theorem openedAfter {c : Instr} {s t : State} (hc : touchesQueues c = false) (ht : exec c s = .next t) (p : Port) :
    (t.ports.get p).session = .opened ↔ (s.ports.get p).session = .opened := by
  cases hx : touchesPorts c with
  | false => rw [((of_exec_next (ports_after c s hx) ht).session p).1]
  | true =>
    have hput {q : Port} {u : PortUnit} (hu : u.session ≠ .opened) (hq : (s.ports.get q).session ≠ .opened) :
        ((s.ports.put q u).get p).session = .opened ↔ (s.ports.get p).session = .opened := by
      rw [Table.get_put]
      split
      · next he => exact iff_of_false hu (he ▸ hq)
      · exact .rfl
    have hclosing {q : Port} {st : Stage} (h : (s.ports.get q).session = .closing st) :
        (s.ports.get q).session ≠ .opened := by rw [h]; nofun
    have htoStage {t : State} {q : Port} {st st' : Stage} (ht : t.ports = s.ports)
        (h : (s.ports.get q).session = .closing st) :
        ((t.toStage q st').ports.get p).session = .opened ↔ (s.ports.get p).session = .opened := by
      simp only [State.toStage, State.setPort_ports, ht]
      exact hput nofun (hclosing h)
    have hboth : (touchesPorts c && !touchesQueues c) = true := by rw [hx, hc]; rfl
    cases c
    case teardownStage2 | teardownStage3 | teardownStage5 =>
      injection ht with ht
      subst ht
      split
      · next hready => exact htoStage (by simp) (State.stageReady_iff.1 hready).1
      · exact .rfl
    case teardownStage4 =>
      simp only [exec, execTeardownStage4] at ht
      split at ht
      · next hst =>
        split at ht <;> injection ht with ht <;> subst ht
        · exact htoStage (by simp) (PortUnit.stage_eq_some.1 hst)
        · exact .rfl
      · injection ht with ht
        subst ht
        exact .rfl
    case teardownStage6 =>
      injection ht with ht
      subst ht
      split
      · next hst =>
        refine hput ?_ (hclosing (PortUnit.stage_eq_some.1 hst))
        unfold PortUnit.ended
        dsimp only
        split
        · rw [PortUnit.receive_session]
          nofun
        · nofun
      · exact .rfl
    case prstnRelease q =>
      injection ht with ht
      subst ht
      simp only [State.setPort_ports, Table.get_put]
      split
      · next he => rw [he]
      · exact .rfl
    all_goals exact nomatch (show false = true from hboth)

theorem State.QueueLaw.claim {s t : State} {p : Port} {r : Request} {work : State → State × Answer} (h : s.QueueLaw)
    (hw : ∀ s : State, s.QueueLaw → (work s).1.QueueLaw) (ht : claim p r work s = .next t) : t.QueueLaw := by
  rcases claim_cases p r work s with hc | ⟨aw, rest, _, hc⟩ <;> rw [hc] at ht <;> injection ht with ht <;> subst ht
  · exact h
  · unfold State.answer
    refine State.QueueLaw.setPort (hw (s.withInFlight p rest) ?_) ?_
    · exact h.setPort (u := { s.ports.get p with inFlight := rest }) .rfl
    · rw [PortUnit.receive_session]

theorem State.QueueLaw.exec (c : Instr) (s t : State) (h : s.QueueLaw) (ht : exec c s = .next t) : t.QueueLaw := by
  cases hc : touchesQueues c with
  | false => exact fun p => State.QueueAgrees.of_kept (h p) (of_exec_next (keeps_queues c s hc) ht) (openedAfter hc ht p)
  | true =>
    cases c
    case put | get | peek | voidTransaction | identify | openSession | closeSession =>
      exact of_exec_next ((transaction_done rfl s).imp fun _ hd => ⟨hd.1, h.transaction hd.2⟩) ht
    case prstnAssert p =>
      simp only [Machine.exec, execPrstnAssert] at ht
      split at ht <;> injection ht with ht <;> subst ht
      · exact h
      · split
        · exact h.startTeardown_setPort _ _
        · exact h.setPort .rfl
    case eventAppend p src =>
      simp only [Machine.exec, execEventAppend] at ht
      split at ht <;> injection ht with ht <;> subst ht
      · exact h
      · next a rest _ =>
        have hq : EventQueue.Law { s.queues.get p with arriving := rest } := (h p).1.of_same rfl rfl rfl rfl rfl
        exact h.setQueue (hq.append _ _) (by simp)
    case ackEvents p n =>
      refine h.claim (fun s h => ?_) ht
      unfold ackEvents
      dsimp only
      split
      · exact h
      · next k hk => exact h.setQueue ((h p).1.removed k (ackCount_pos hk)) rfl
    case setAttention p b => exact h.claim (fun s h => h.setQueue ((h p).1.withAttention b) rfl) ht
    case rstnAssert | supplyBelowRange =>
      injection ht with ht
      subst ht
      intro p
      simp only [State.resetBlocks, Table.get_all, Table.get_mapIdx]
      exact ⟨EventQueue.law_reset, iff_of_false nofun nofun⟩
    all_goals exact nomatch (show false = true from hc)

theorem microsecond_queues (s : State) : s.microsecond.queues = s.queues := by
  rcases microsecond_cases s with ⟨_, h⟩ | ⟨_, _, h⟩ | ⟨_, _, h⟩ <;> rw [h] <;> rfl

end Sys2Proof.Machine

namespace Sys2Proof.LawsKept

open Machine

/-- Settles O55: most commands hand records over at most; the append, the acknowledgement and the attention enable keep the
law of their queue, and a queue is opened and closed in the step that opens and closes its session. -/
theorem queueLawKept : Obligations.QueueLawKept :=
  step_keeps (fun _ _ h => h)
    (fun s h p => State.QueueAgrees.of_kept (h p) (.of_eq (microsecond_queues s)) (by rw [microsecond_ports]))
    State.QueueLaw.exec

end Sys2Proof.LawsKept
end

section
/-!
PROOFS. The law of the axis unit and of its path to the zone controller (R5–R7, R22, R24), over every way in which an axis unit
or the view of it changes.
-/

namespace Sys2Proof.Machine

/-! ### Where a path leads -/

theorem pathLive_append (b : Bool) (l : List AxisMsg) (m : AxisMsg) :
    pathLive b (l ++ [m]) = (pathLive b l).bind fun b' => pathLive b' [m] := by
  induction l generalizing b with
  | nil => rfl
  | cons x xs ih =>
    cases x with
    | sample | rebase => cases b with
      | false => rfl
      | true => exact ih true
    | freeze => exact ih false
    | thaw => exact ih true

/-- R22: taking the first message of a path that can be taken leaves the rest of the path where it led. -/
theorem pathLive_cons {b b' : Bool} {m : AxisMsg} {rest : List AxisMsg} (h : pathLive b (m :: rest) = some b') :
    pathLive (m.liveAfter b) rest = some b' := by
  cases m with
  | sample | rebase => cases b with
    | false => exact nomatch h
    | true => exact h
  | freeze | thaw => exact h

/-- The axis unit keeps its law, and its path leads a view that is live as `b` says to the unit's own liveness. -/
def AxisUnit.Follows (b : Bool) (u : AxisUnit) : Prop := u.Law ∧ pathLive b u.outbox = some u.state.isLive

variable {b : Bool} {u v : AxisUnit}

/-- A notice that joins the path of a unit. -/
theorem AxisUnit.pathLive_notify {m : AxisMsg} {l : Bool} (h : pathLive b u.outbox = some l) :
    pathLive b (u.notify m).outbox = pathLive l [m] := by
  rw [AxisUnit.notify, pathLive_append, h]
  rfl

/-- R21: a sample that joins the path of a live unit, in place of an undelivered one or not. -/
theorem AxisUnit.pathLive_pushSample {al : Bool} (h : pathLive b u.outbox = some true) :
    pathLive b (u.pushSample al).outbox = some true := by
  unfold AxisUnit.pushSample
  split
  · next x a hlast =>
    obtain ⟨init, hinit⟩ : ∃ init, u.outbox = init ++ [.sample x a] :=
      ⟨_, (List.dropLast_append_getLast? _ hlast).symm⟩
    rw [hinit, pathLive_append] at h
    simp only [hinit, List.dropLast_concat, pathLive_append]
    exact h
  · exact AxisUnit.pathLive_notify h

/-! ### The law of one unit -/

theorem AxisUnit.inRange_congr (hc : v.count = u.count) (ho : v.offset = u.offset) (hf : v.config = u.config) :
    v.inRange = u.inRange := by
  unfold AxisUnit.inRange AxisUnit.inWindow AxisUnit.position
  rw [hc, ho, hf]

theorem AxisUnit.presetOk_congr (ho : v.offset = u.offset) (hf : v.config = u.config) (x : Int) :
    v.presetOk x = u.presetOk x := by
  unfold AxisUnit.presetOk AxisUnit.inWindow
  rw [ho, hf]

/-- A unit with the count, offset, configuration and state of another keeps its law. -/
theorem AxisUnit.Law.of_same (h : u.Law) (hc : v.count = u.count) (ho : v.offset = u.offset) (hf : v.config = u.config)
    (hs : v.state = u.state) : v.Law where
  countRange := by rw [hc]; exact h.countRange
  offsetRange := by rw [ho]; exact h.offsetRange
  liveRange hl := (AxisUnit.inRange_congr hc ho hf).trans (h.liveRange (hs ▸ hl))
  presetRange a ha := (AxisUnit.presetOk_congr ho hf _).trans (h.presetRange a (hs ▸ ha))

/-- R9: no condition binds an axis that is not live, but those of its count and its offset. -/
theorem AxisUnit.law_of_dead (hc : Config.countMin ≤ v.count ∧ v.count ≤ Config.countMax)
    (ho : offsetInRange v.offset = true) (hdead : v.state.isLive = false) : v.Law where
  countRange := hc
  offsetRange := ho
  liveRange hl := absurd (hdead.symm.trans hl) Bool.false_ne_true
  presetRange a ha := absurd hdead (by rw [ha]; exact Bool.noConfusion)

/-- R7: a live axis that is not ARMED is bound by its window and its bounds. -/
theorem AxisUnit.law_of_live (ho : offsetInRange v.offset = true) (hin : v.inRange = true)
    (hfree : ∀ a, v.state = .armed a → v.presetOk a.preset = true) : v.Law where
  countRange := by
    have hcount := (Bool.and_eq_true_iff.1 hin).2
    simp only [countInside, Bool.and_eq_true, decide_eq_true_eq] at hcount
    exact ⟨hcount.1.le, hcount.2.le⟩
  offsetRange := ho
  liveRange _ := hin
  presetRange := hfree

/-- R2, R5: a counted step saturates at the bounds. -/
theorem countStep_inRange (d : StepDir) {c : Int} (h : Config.countMin ≤ c ∧ c ≤ Config.countMax) :
    Config.countMin ≤ countStep d c ∧ countStep d c ≤ Config.countMax := by
  have hpos : Config.countMin ≤ Config.countMax := by decide
  cases d <;> simp only [countStep] <;> split <;> omega

theorem AxisUnit.Follows.enterLost {ax : Axis} {now : Word} {c : LostCause} {l : Bool}
    (hc : Config.countMin ≤ u.count ∧ u.count ≤ Config.countMax) (ho : offsetInRange u.offset = true)
    (hp : pathLive b u.outbox = some l) : (u.enterLost ax now c).1.Follows b :=
  ⟨AxisUnit.law_of_dead hc ho rfl, AxisUnit.pathLive_notify hp⟩

@[simp] theorem AxisUnit.pushSample_count (al : Bool) (u : AxisUnit) : (u.pushSample al).count = u.count := by
  unfold AxisUnit.pushSample
  split <;> rfl

@[simp] theorem AxisUnit.pushSample_offset (al : Bool) (u : AxisUnit) : (u.pushSample al).offset = u.offset := by
  unfold AxisUnit.pushSample
  split <;> rfl

@[simp] theorem AxisUnit.pushSample_config (al : Bool) (u : AxisUnit) : (u.pushSample al).config = u.config := by
  unfold AxisUnit.pushSample
  split <;> rfl

theorem AxisUnit.Follows.countedStep {ax : Axis} {now : Word} {d : StepDir} (h : u.Follows b) :
    (u.countedStep ax now d).1.Follows b := by
  obtain ⟨hlaw, hpath⟩ := h
  have hcount := countStep_inRange d hlaw.countRange
  unfold AxisUnit.countedStep
  dsimp only
  split
  · next hlive =>
    rw [hlive] at hpath
    -- whether or not a sample joins the path, the unit keeps its offset, its window and its state
    have hgo {w : AxisUnit} (hc : w.count = countStep d u.count) (ho : w.offset = u.offset) (hf : w.config = u.config)
        (hs : w.state = u.state) (hp : pathLive b w.outbox = some true) :
        (if w.inRange then (w, []) else w.enterLost ax now .range).1.Follows b := by
      split
      · next hin =>
        refine ⟨AxisUnit.law_of_live (ho ▸ hlaw.offsetRange) hin fun a ha => ?_, by rw [hp, hs, hlive]⟩
        exact (AxisUnit.presetOk_congr ho hf _).trans (hlaw.presetRange a (hs ▸ ha))
      · exact .enterLost (hc ▸ hcount) (ho ▸ hlaw.offsetRange) hp
    split
    · exact hgo rfl rfl rfl rfl hpath
    · exact hgo (by simp) (by simp) (by simp) (by simp) (AxisUnit.pathLive_pushSample hpath)
  · next hdead => exact ⟨AxisUnit.law_of_dead hcount hlaw.offsetRange (by simpa using hdead), hpath⟩

/-- R1–R4, R30–R40: an event of the encoder keeps the law of its unit and of the path. -/
theorem AxisUnit.Follows.sensed {ax : Axis} (h : u.Follows b) (hv : u.Sensed ax v) : v.Follows b := by
  have hsame {w : AxisUnit} (hc : w.count = u.count) (ho : w.offset = u.offset) (hf : w.config = u.config)
      (hs : w.state = u.state) (hp : w.outbox = u.outbox) : w.Follows b :=
    ⟨h.1.of_same hc ho hf hs, by rw [hp, hs]; exact h.2⟩
  cases hv with
  | stepped now raw =>
    unfold AxisUnit.encoderStep
    dsimp only
    split
    · exact hsame rfl rfl rfl rfl rfl
    · split
      · refine AxisUnit.Follows.countedStep ?_
        exact hsame rfl rfl rfl rfl rfl
      · exact hsame rfl rfl rfl rfl rfl
  | faulted now phase level =>
    unfold AxisUnit.signalFault
    split
    · exact .enterLost h.1.countRange h.1.offsetRange h.2
    · exact hsame rfl rfl rfl rfl rfl
  | levelled level => exact hsame rfl rfl rfl rfl rfl
  | pulsed now ts =>
    unfold AxisUnit.indexPulse
    dsimp only
    split
    · exact h
    · exact hsame rfl rfl rfl rfl rfl
    · exact hsame rfl rfl rfl rfl rfl
    · next a ha =>
      split
      · have hok := h.1.presetRange a ha
        have hpath : pathLive b u.outbox = some true := by rw [h.2, ha]; rfl
        refine ⟨AxisUnit.law_of_live h.1.offsetRange ?_ nofun, AxisUnit.pathLive_notify hpath⟩
        have hpos : (u.aligned a).position = a.preset := Int.sub_add_cancel ..
        change (u.inWindow (u.aligned a).position && countInside (a.preset - u.offset)) = true
        rw [hpos]
        exact hok
      · exact hsame rfl rfl rfl rfl rfl
    · split
      · exact hsame rfl rfl rfl rfl rfl
      · exact .enterLost h.1.countRange h.1.offsetRange h.2

/-- R8, R11–R14, R19, R25, R36: a request keeps the law of its unit and of the path. -/
theorem AxisUnit.Follows.asked {q : Port} (h : u.Follows b) (hv : u.Asked q v) : v.Follows b := by
  obtain ⟨hlaw, hpath⟩ := h
  cases hv with
  | configured c hidle => exact ⟨AxisUnit.law_of_dead hlaw.countRange hlaw.offsetRange (by simp [hidle, AxisState.isLive]), hpath⟩
  | started hwin =>
    refine ⟨AxisUnit.law_of_live hlaw.offsetRange ?_ nofun, AxisUnit.pathLive_notify hpath⟩
    simpa [AxisUnit.inRange, AxisUnit.inWindow, AxisUnit.position, AxisUnit.notify, AxisUnit.started,
      countInside, Config.countMin, Config.countMax] using hwin
  | stopped => exact ⟨AxisUnit.law_of_dead hlaw.countRange hlaw.offsetRange rfl, AxisUnit.pathLive_notify hpath⟩
  | resumed hin => exact ⟨AxisUnit.law_of_live hlaw.offsetRange hin nofun, AxisUnit.pathLive_notify hpath⟩
  | offset x hx hdead => exact ⟨AxisUnit.law_of_dead hlaw.countRange hx hdead, hpath⟩
  | rebased x hx hlive hfree hwin =>
    rw [hlive] at hpath
    refine ⟨AxisUnit.law_of_live hx ?_ fun a ha => absurd ha (hfree a), (AxisUnit.pathLive_notify hpath).trans ?_⟩
    · exact Bool.and_eq_true_iff.2 ⟨hwin, (Bool.and_eq_true_iff.1 (hlaw.liveRange hlive)).2⟩
    · exact congrArg some hlive.symm
  | subscribers => exact ⟨hlaw.of_same rfl rfl rfl rfl, hpath⟩
  | armed a ha hlive hok =>
    refine ⟨AxisUnit.law_of_live hlaw.offsetRange (hlaw.liveRange hlive) fun a' ha' => ?_, by rw [hpath, hlive]; rfl⟩
    injection ha' with ha'
    exact ha' ▸ hok
  | rearmed a ha hok hin =>
    refine ⟨AxisUnit.law_of_live hlaw.offsetRange hin fun a' ha' => ?_, AxisUnit.pathLive_notify hpath⟩
    injection ha' with ha'
    exact ha' ▸ hok
  | cancelled hlive =>
    exact ⟨AxisUnit.law_of_live hlaw.offsetRange (hlaw.liveRange hlive) nofun, by rw [hpath, hlive]; rfl⟩

/-- R37: stage 4 of a teardown keeps the law of the unit and of the path. -/
theorem AxisUnit.Follows.tearDown {ax : Axis} {now : Word} {p : Port} (h : u.Follows b) :
    (u.tearDown ax now p).1.Follows b := by
  obtain ⟨hlaw, hpath⟩ := h
  have hstays : AxisUnit.Follows b { u with subscribers := u.subscribers.put p false } :=
    ⟨hlaw.of_same rfl rfl rfl rfl, hpath⟩
  unfold AxisUnit.tearDown
  dsimp only
  split
  · next a ha =>
    have hlive : u.state.isLive = true := by rw [ha]; rfl
    split
    · exact ⟨AxisUnit.law_of_live hlaw.offsetRange (hlaw.liveRange hlive) nofun, by rw [hpath, hlive]; rfl⟩
    · exact hstays
  · exact hstays

/-! ### The units and their views -/

/-- Every unit and its path, over the tables of the axis units and of the views: the law of the axes of a state. -/
theorem State.axisLaw_iff {s : State} :
    s.AxisLaw ↔ ∀ ax, (s.axes.get ax).Follows (decide ((s.views.get ax).liveness = .live)) := .rfl

theorem State.AxisLaw.of_same {s t : State} (h : s.AxisLaw) (ha : t.axes = s.axes) (hv : t.views = s.views) :
    t.AxisLaw := by
  intro ax
  rw [ha, hv]
  exact h ax

/-- One axis unit replaced. -/
theorem State.AxisLaw.put {s t : State} (h : s.AxisLaw) {ax : Axis} {v : AxisUnit} (ha : t.axes = s.axes.put ax v)
    (hv : t.views = s.views) (hfollows : v.Follows (decide ((s.views.get ax).liveness = .live))) : t.AxisLaw := by
  intro ax'
  rw [ha, hv, Table.get_put]
  split
  · next he => exact he ▸ hfollows
  · exact h ax'

theorem touchesViews_cases {c : Instr} (h : touchesViews c = true) :
    c = .rstnAssert ∨ c = .supplyBelowRange ∨ ∃ ax, pathTaken c = some ax := by
  cases c
  case rstnAssert => exact .inl rfl
  case supplyBelowRange => exact .inr (.inl rfl)
  case sample | rebaseNotice | freezeNotice | thawNotice => exact .inr (.inr ⟨_, rfl⟩)
  all_goals exact nomatch (show false = true from h)

theorem axisRequest_views {c : Instr} {pa : Port × Axis} (hc : axisRequest c = some pa) : touchesViews c = false := by
  cases c
  case configureAxis | start | stop | resume | setOffset | subscribeAxis | unsubscribeAxis | align | cancelAlign => rfl
  all_goals exact nomatch hc

theorem encoderEvent_views {c : Instr} {ax : Axis} (hc : encoderEvent c = some ax) : touchesViews c = false := by
  cases c
  case encoderStep | skippedState | lineFaultRise | lineFaultFall | indexPulse => rfl
  all_goals exact nomatch hc

/-- R169: after part reset every axis is IDLE, its view frozen and its path empty. -/
theorem State.axisLaw_resetBlocks (s : State) : s.resetBlocks.AxisLaw := by
  intro ax
  simp only [State.resetBlocks, Table.get_mapIdx, Table.get_all]
  exact ⟨AxisUnit.law_of_dead (by decide : Config.countMin ≤ 0 ∧ 0 ≤ Config.countMax)
    (by decide : offsetInRange 0 = true) rfl, rfl⟩

/-- R22, R56: a message taken from a path leads the view where the path led. -/
theorem State.AxisLaw.taken {s t : State} (h : s.AxisLaw) {ax : Axis} {m : AxisMsg} {rest : List AxisMsg} {v : View}
    (ho : (s.axes.get ax).outbox = m :: rest) (ha : t.axes = s.axes.put ax { s.axes.get ax with outbox := rest })
    (hv : t.views = s.views.put ax v)
    (hl : decide (v.liveness = .live) = m.liveAfter (decide ((s.views.get ax).liveness = .live))) : t.AxisLaw := by
  intro ax'
  obtain ⟨hlaw, hpath⟩ := h ax
  rw [ha, hv, Table.get_put, Table.get_put]
  split
  · rw [hl]
    exact ⟨hlaw.of_same rfl rfl rfl rfl, pathLive_cons (ho ▸ hpath)⟩
  · exact h ax'

theorem State.AxisLaw.exec (c : Instr) (s t : State) (h : s.AxisLaw) (ht : exec c s = .next t) : t.AxisLaw := by
  cases ha : touchesAxes c with
  | false =>
    have haxes := of_exec_next (keeps_axes c s ha) ht
    cases hv : touchesViews c with
    | false => exact h.of_same haxes (of_exec_next (keeps_views c s hv) ht)
    | true =>
      have hboth : (touchesViews c && !touchesAxes c) = true := by rw [hv, ha]; rfl
      cases c
      all_goals exact nomatch (show false = true from hboth)
  | true =>
    have hviews (hv : touchesViews c = false) : t.views = s.views := of_exec_next (keeps_views c s hv) ht
    rcases touchesAxes_cases ha with rfl | rfl | ⟨p, ax, rfl⟩ | ⟨q, ax, hc⟩ | ⟨ax, hc⟩ | ⟨ax, hc⟩
    · injection ht with ht
      subst ht
      exact s.axisLaw_resetBlocks
    · injection ht with ht
      subst ht
      exact s.axisLaw_resetBlocks
    · simp only [Machine.exec, execTeardownStage4] at ht
      split at ht
      · split at ht <;> injection ht with ht <;> subst ht
        · exact h.put rfl rfl (AxisUnit.Follows.tearDown (h ax))
        · exact h
      · injection ht with ht
        subst ht
        exact h
    · rcases of_exec_next (axisRequest_axes hc s) ht with haxes | ⟨_, v, hasked, haxes⟩
      · exact h.of_same haxes (hviews (axisRequest_views hc))
      · exact h.put haxes (hviews (axisRequest_views hc)) (AxisUnit.Follows.asked (h ax) hasked)
    · rcases of_exec_next (encoderEvent_axes hc s) ht with haxes | ⟨v, hsensed, haxes⟩
      · exact h.of_same haxes (hviews (encoderEvent_views hc))
      · exact h.put haxes (hviews (encoderEvent_views hc)) (AxisUnit.Follows.sensed (h ax) hsensed)
    · rcases of_exec_next (pathTaken_axes hc s) ht with ⟨haxes, hviews⟩ | ⟨m, rest, v, ho, haxes, hviews, hl⟩
      · exact h.of_same haxes hviews
      · exact h.taken ho haxes hviews hl

end Sys2Proof.Machine

namespace Sys2Proof.LawsKept

open Machine

/-- Settles O56: every way in which an axis unit changes keeps its law and lets its path lead the view to its liveness; taking
a message from the path moves the view along it. -/
theorem axisLawKept : Obligations.AxisLawKept :=
  step_keeps (fun _ _ h => h)
    (fun s h => by rcases microsecond_cases s with ⟨_, hs⟩ | ⟨_, _, hs⟩ | ⟨_, _, hs⟩ <;> rw [hs] <;> exact h)
    State.AxisLaw.exec

end Sys2Proof.LawsKept
end

section
/-!
PROOFS. The law of the zone table (R43, R45): bounds in order, zones frozen as the view of their axis is, at most 16 zones of one
author.
-/

namespace Sys2Proof.Machine

/-- The bounds of a zone (R42, R46). -/
def Zone.InOrder (zn : Zone) : Prop := zn.lower ≤ zn.upper ∧ zn.upper ≤ Config.positionMax

/-- A zone that a claim of another kind than freeze or thaw makes of a zone. -/
structure Zone.Succeeds (zn' zn : Zone) : Prop where
  author : zn'.author = zn.author
  axis : zn'.axis = zn.axis
  frozen : zn'.frozen = zn.frozen
  bounds : zn.InOrder → zn'.InOrder

theorem inOrder_of_badBounds {zn : Zone} (h : badBounds zn.lower zn.upper = false) : zn.InOrder := by
  simpa [badBounds, Zone.InOrder] using h

/-! ### How many zones a port authors -/

theorem mem_authored {zones : Table 32 Slot} {p : Port} {z : ZoneId} :
    z ∈ authored zones p ↔ ∃ zn, (zones.get z).zone = some zn ∧ zn.author = p := by
  rw [authored, Table.mem_having]
  cases (zones.get z).zone <;> simp

/-- R45: a port whose zones are, but for those of a list, zones it authored before authors no more than those and before. -/
theorem length_authored_le {before after : Table 32 Slot} {p : Port} {new : List ZoneId}
    (h : ∀ z zn', (after.get z).zone = some zn' → zn'.author = p →
      z ∈ new ∨ ∃ zn, (before.get z).zone = some zn ∧ zn.author = p) :
    (authored after p).length ≤ (new ++ authored before p).length := by
  refine (List.subperm_of_subset (Table.having_nodup _ _) fun z hz => ?_).length_le
  obtain ⟨zn', hz', hp⟩ := mem_authored.1 hz
  exact List.mem_append.2 ((h z zn' hz' hp).imp id mem_authored.2)

/-! ### Tables whose zones succeed zones -/

/-- The zones of a table come from zones of another, of the same author, and meet the law against a table of views. -/
theorem State.ZoneLaw.of_from {s t : State} (h : s.ZoneLaw)
    (hz : ∀ z zn', (t.zones.get z).zone = some zn' → ∃ zn, (s.zones.get z).zone = some zn ∧ zn'.author = zn.author ∧
      zn'.InOrder ∧ (zn'.frozen = true ↔ (t.views.get zn'.axis).liveness ≠ .live)) : t.ZoneLaw where
  bounds z zn' hz' := by
    obtain ⟨_, _, _, hb, _⟩ := hz z zn' hz'
    exact hb
  frozen z zn' hz' := by
    obtain ⟨_, _, _, _, hf⟩ := hz z zn' hz'
    exact hf
  authors p := by
    refine (length_authored_le (new := []) fun z zn' hz' hp => ?_).trans (h.authors p)
    obtain ⟨zn, hzn, ha, _⟩ := hz z zn' hz'
    exact .inr ⟨zn, hzn, ha ▸ hp⟩

/-- Every zone of a slot succeeds the zone that another slot held. -/
def Slot.Succeeds (sl' sl : Slot) : Prop := ∀ zn', sl'.zone = some zn' → ∃ zn, sl.zone = some zn ∧ zn'.Succeeds zn

theorem Slot.Succeeds.refl (sl : Slot) : sl.Succeeds sl := fun zn h => ⟨zn, h, rfl, rfl, rfl, id⟩

theorem State.ZoneLaw.of_succeeds {s t : State} (h : s.ZoneLaw) (hv : t.views = s.views)
    (hz : ∀ z, (t.zones.get z).Succeeds (s.zones.get z)) : t.ZoneLaw :=
  h.of_from fun z zn' hz' => by
    obtain ⟨zn, hzn, ha, hax, hf, hb⟩ := hz z zn' hz'
    exact ⟨zn, hzn, ha, hb (h.bounds z zn hzn), by rw [hv, hax, hf]; exact h.frozen z zn hzn⟩

theorem State.ZoneLaw.of_same {s t : State} (h : s.ZoneLaw) (hz : t.zones = s.zones) (hv : t.views = s.views) :
    t.ZoneLaw := h.of_succeeds hv fun _ => hz ▸ .refl _

theorem State.ZoneLaw.put {s t : State} (h : s.ZoneLaw) {z : ZoneId} {sl : Slot} (hv : t.views = s.views)
    (ht : t.zones = s.zones.put z sl) (hsl : sl.Succeeds (s.zones.get z)) : t.ZoneLaw :=
  h.of_succeeds hv fun z' => by
    rw [ht, Table.get_put]
    split
    · next he => exact he ▸ hsl
    · exact .refl _

/-! ### The requests of the zone table -/

section

variable {p : Port} {s : State}

/-- R46: a zone put in an EMPTY slot, while its author authors fewer than 16. -/
theorem State.ZoneLaw.define {z : ZoneId} {g : BitVec 16} {zn : Zone} (h : s.ZoneLaw) (hb : zn.InOrder)
    (hf : zn.frozen = true ↔ (s.views.get zn.axis).liveness ≠ .live)
    (hlimit : (authored s.zones zn.author).length < Config.zonesPerAuthor) :
    (s.setSlot z { generation := g, zone := some zn }).ZoneLaw := by
  have hslot (z' : ZoneId) (zn' : Zone)
      (hz : ((s.setSlot z { generation := g, zone := some zn }).zones.get z').zone = some zn') :
      (z' = z ∧ zn' = zn) ∨ (s.zones.get z').zone = some zn' := by
    simp only [State.setSlot, Table.get_put] at hz
    split at hz
    · next he => exact .inl ⟨he.symm, (Option.some.inj hz).symm⟩
    · exact .inr hz
  constructor
  case bounds =>
    intro z' zn' hz
    rcases hslot z' zn' hz with ⟨-, rfl⟩ | hold
    · exact hb
    · exact h.bounds z' zn' hold
  case frozen =>
    intro z' zn' hz
    rcases hslot z' zn' hz with ⟨-, rfl⟩ | hold
    · exact hf
    · exact h.frozen z' zn' hold
  case authors =>
    intro q
    by_cases hq : zn.author = q
    · refine (length_authored_le (new := [z]) fun z' zn' hz hp => ?_).trans (hq ▸ hlimit)
      exact (hslot z' zn' hz).imp (fun hnew => List.mem_singleton.2 hnew.1) fun hold => ⟨zn', hold, hp⟩
    · refine (length_authored_le (new := []) fun z' zn' hz hp => .inr ?_).trans (h.authors q)
      rcases hslot z' zn' hz with ⟨-, rfl⟩ | hold
      · exact absurd hp hq
      · exact ⟨zn', hold, hp⟩

theorem State.ZoneLaw.defineZone {ax : Axis} {lo up : Int} {gd : BitVec 16} {c : CaptureFlags} {f : Option Filter}
    (h : s.ZoneLaw) : (defineZone p ax lo up gd c f s).1.ZoneLaw := by
  unfold Machine.defineZone
  dsimp only
  split
  · exact h
  · split_ifs with hlimit hbad
    · exact h
    · exact h
    · refine h.define (inOrder_of_badBounds (show badBounds lo up = false by simpa using hbad)) ?_ (not_le.1 hlimit)
      simp [newZone]

theorem State.ZoneLaw.modifyZone {z : ZoneId} {g : BitVec 16} {lo up : Int} {gd : BitVec 16} {c : CaptureFlags}
    (h : s.ZoneLaw) : (modifyZone p z g lo up gd c s).1.ZoneLaw := by
  unfold Machine.modifyZone
  dsimp only
  split
  · exact h
  · next zn hz =>
    split_ifs with _ _ hbad
    · exact h
    · exact h
    · exact h
    · split
      · exact h
      · refine h.put (z := z) rfl rfl fun zn' hz' => ?_
        obtain rfl := Option.some.inj hz'
        exact ⟨zn, hz, rfl, rfl, rfl, fun _ => inOrder_of_badBounds (by simpa [modifiedZone] using hbad)⟩

theorem State.ZoneLaw.deleteZone {z : ZoneId} {g : BitVec 16} (h : s.ZoneLaw) : (deleteZone p z g s).1.ZoneLaw := by
  unfold Machine.deleteZone
  dsimp only
  split
  · exact h
  · split_ifs
    · exact h
    · exact h
    · split
      · exact h
      · exact h.put (z := z) rfl rfl nofun

theorem State.ZoneLaw.subscribeZone {z : ZoneId} {g : BitVec 16} {f : Filter} (h : s.ZoneLaw) :
    (subscribeZone p z g f s).1.ZoneLaw := by
  unfold Machine.subscribeZone
  dsimp only
  split
  · exact h
  · next zn hz =>
    split_ifs
    · exact h
    · refine h.put (z := z) rfl rfl fun zn' hz' => ?_
      obtain rfl := Option.some.inj hz'
      exact ⟨zn, hz, rfl, rfl, rfl, id⟩

theorem State.ZoneLaw.unsubscribeZone {z : ZoneId} (h : s.ZoneLaw) : (unsubscribeZone p z s).1.ZoneLaw := by
  unfold Machine.unsubscribeZone
  dsimp only
  split
  · exact h
  · next zn hz =>
    split_ifs
    · exact h
    · refine h.put (z := z) rfl rfl fun zn' hz' => ?_
      obtain rfl := Option.some.inj hz'
      exact ⟨zn, hz, rfl, rfl, rfl, id⟩

/-- R52, R68: stage 5 of a teardown deletes the zones the port authors and ends its subscriptions. -/
theorem Slot.succeeds_tearDown (p : Port) (sl : Slot) : (sl.tearDown p).Succeeds sl := by
  unfold Slot.tearDown
  split
  · exact nofun
  · intro zn' hz'
    obtain ⟨zn, hz, rfl⟩ := Option.map_eq_some_iff.1 hz'
    exact ⟨zn, hz, rfl, rfl, rfl, id⟩

theorem State.ZoneLaw.tearDown (h : s.ZoneLaw) : (zoneTearDown p s).ZoneLaw := by
  refine h.of_succeeds (zoneTearDown_views p s) fun z => ?_
  rw [zoneTearDown_zones, Table.get_mapIdx]
  exact Slot.succeeds_tearDown p _

end

/-! ### The messages of the paths -/

/-- The zone of a slot after an evaluation: evaluated, if it is a zone of the axis, and else the zone it was. -/
theorem evaluated_cases {ax : Axis} {f : Evaluation} {zones : Table 32 Slot} {z : ZoneId} {zn' : Zone}
    (h : ((evaluated ax f zones).get z).zone = some zn') :
    ∃ zn, (zones.get z).zone = some zn ∧
      ((zn.axis = ax ∧ zn' = (f z (zones.get z).generation zn).1) ∨ (zn.axis ≠ ax ∧ zn' = zn)) := by
  simp only [evaluated, Table.get_mapIdx, Slot.onAxis] at h
  cases hz : (zones.get z).zone with
  | none => simp [hz] at h
  | some zn =>
    simp only [hz] at h
    by_cases hax : zn.axis = ax
    · simp only [hax, if_true] at h
      exact ⟨zn, rfl, .inl ⟨hax, (Option.some.inj h).symm⟩⟩
    · simp only [hax, if_false] at h
      exact ⟨zn, rfl, .inr ⟨hax, (Option.some.inj (hz.symm.trans h)).symm⟩⟩

/-- R59, R61–R63: an evaluation of the zones of an axis that leaves them frozen as the new view is. -/
theorem State.ZoneLaw.evaluated {s t : State} (h : s.ZoneLaw) {ax : Axis} {f : Evaluation} {v : View} (hf : f.Judges)
    (hz : t.zones = evaluated ax f s.zones) (hv : t.views = s.views.put ax v)
    (hfrozen : ∀ z g zn, (zn.frozen = true ↔ (s.views.get ax).liveness ≠ .live) →
      ((f z g zn).1.frozen = true ↔ v.liveness ≠ .live)) : t.ZoneLaw :=
  h.of_from fun z zn' hz' => by
    obtain ⟨zn, hzn, ⟨hax, rfl⟩ | ⟨hax, rfl⟩⟩ := evaluated_cases (hz ▸ hz')
    · have hfr := hfrozen z (s.zones.get z).generation zn (hax ▸ h.frozen z zn hzn)
      obtain ⟨m, fr, he⟩ := hf z (s.zones.get z).generation zn
      rw [he] at hfr ⊢
      refine ⟨zn, hzn, rfl, h.bounds z zn hzn, ?_⟩
      rw [hv, hax, Table.get_put_self]
      exact hfr
    · refine ⟨zn', hzn, rfl, h.bounds z zn' hzn, ?_⟩
      rw [hv, Table.get_put_other _ (Ne.symm hax)]
      exact h.frozen z zn' hzn

theorem State.ZoneLaw.pathTaken {c : Instr} {ax : Axis} (hc : pathTaken c = some ax) {s t : State} (h : s.ZoneLaw)
    (ht : exec c s = .next t) : t.ZoneLaw := by
  cases c
  case sample =>
    cases hc
    simp only [exec, execSample] at ht
    split at ht <;> injection ht with ht <;> subst ht
    · refine h.evaluated (sampleEvaluation_judges _ _ _) rfl rfl fun _ _ _ hzn => ?_
      unfold sampleEvaluation
      split <;> exact hzn
    · exact h
  case rebaseNotice =>
    cases hc
    simp only [exec, execRebaseNotice] at ht
    split at ht <;> injection ht with ht <;> subst ht
    · refine h.evaluated (rebaseEvaluation_judges _ _ _ _) rfl rfl fun _ _ _ hzn => ?_
      unfold rebaseEvaluation
      split <;> exact hzn
    · exact h
  case freezeNotice =>
    cases hc
    simp only [exec, execFreezeNotice] at ht
    split at ht <;> injection ht with ht <;> subst ht
    · exact h.evaluated (freezeEvaluation_judges _ _ _) rfl rfl fun _ _ _ _ => iff_of_true rfl nofun
    · exact h
  case thawNotice =>
    cases hc
    simp only [exec, execThawNotice] at ht
    split at ht <;> injection ht with ht <;> subst ht
    · exact h.evaluated (thawEvaluation_judges _ _ _) rfl rfl fun _ _ _ _ => iff_of_false nofun fun hn => hn rfl
    · exact h
  all_goals exact nomatch hc

/-! ### Every step -/

/-- R169: after part reset there is no zone. -/
theorem State.zoneLaw_resetBlocks (s : State) : s.resetBlocks.ZoneLaw := by
  have hnone (z : ZoneId) (zn : Zone) (hz : (s.resetBlocks.zones.get z).zone = some zn) : False := by
    rw [State.resetBlocks, Table.get_all] at hz
    exact nomatch hz
  refine ⟨fun z zn hz => (hnone z zn hz).elim, fun z zn hz => (hnone z zn hz).elim, fun p => ?_⟩
  have hnil : authored s.resetBlocks.zones p = [] := List.eq_nil_iff_forall_not_mem.2 fun z hz => by
    obtain ⟨zn, hzn, -⟩ := mem_authored.1 hz
    exact hnone z zn hzn
  rw [hnil]
  exact Nat.zero_le _

theorem State.ZoneLaw.exec (c : Instr) (s t : State) (h : s.ZoneLaw) (ht : exec c s = .next t) : t.ZoneLaw := by
  have hport (p : Port) (u : PortUnit) (s : State) (h : s.ZoneLaw) : (s.setPort p u).ZoneLaw := h.of_same rfl rfl
  cases hz : touchesZones c with
  | false =>
    have hzones := of_exec_next (keeps_zones c s hz) ht
    cases hv : touchesViews c with
    | false => exact h.of_same hzones (of_exec_next (keeps_views c s hv) ht)
    | true =>
      have hboth : (touchesViews c && !touchesZones c) = true := by rw [hv, hz]; rfl
      cases c
      all_goals exact nomatch (show false = true from hboth)
  | true =>
    cases c
    case sample | rebaseNotice | freezeNotice | thawNotice => exact h.pathTaken rfl ht
    case defineZone => exact claim_keeps_of_work hport (fun _ h => h.defineZone) h ht
    case modifyZone => exact claim_keeps_of_work hport (fun _ h => h.modifyZone) h ht
    case deleteZone => exact claim_keeps_of_work hport (fun _ h => h.deleteZone) h ht
    case subscribeZone => exact claim_keeps_of_work hport (fun _ h => h.subscribeZone) h ht
    case unsubscribeZone => exact claim_keeps_of_work hport (fun _ h => h.unsubscribeZone) h ht
    case teardownStage5 p =>
      injection ht with ht
      subst ht
      split
      · exact h.tearDown.of_same (State.setPort_zones ..) (State.setPort_views ..)
      · exact h
    case rstnAssert | supplyBelowRange =>
      injection ht with ht
      subst ht
      exact s.zoneLaw_resetBlocks.of_same rfl rfl
    all_goals exact nomatch (show false = true from hz)

end Sys2Proof.Machine

namespace Sys2Proof.LawsKept

open Machine

/-- Settles O57: a zone is made with its bounds in order and frozen as the view is; afterwards its author never changes, its
bounds only to bounds in order, and it freezes and thaws in the claim in which the view does. -/
theorem zoneLawKept : Obligations.ZoneLawKept :=
  step_keeps (fun _ _ h => ⟨h.bounds, h.frozen, h.authors⟩)
    (fun s h => by rcases microsecond_cases s with ⟨_, hs⟩ | ⟨_, _, hs⟩ | ⟨_, _, hs⟩ <;> rw [hs] <;> exact h.of_same rfl rfl)
    State.ZoneLaw.exec

end Sys2Proof.LawsKept
end

section
/-!
PROOFS. The law of the output table and the drivers (R72–R75, R86, R87): leases and wait queues, maps, requested values, and pins.
-/

namespace Sys2Proof.Machine

/-! ### The leases of one output -/

section

variable {out out' : Output} {p : Port}

theorem durationOk_iff (d : Nat) : durationOk d = true ↔ 10 ≤ d ∧ d ≤ 10000 := by
  simp only [durationOk, Bool.and_eq_true, decide_eq_true_eq]
  rfl

/-- An output with the lease and the wait queue of another keeps their law, while it is not forced without a holder. -/
theorem Output.LeaseLaw.of_same (h : out.LeaseLaw) (hl : out'.lease = out.lease) (hw : out'.waiters = out.waiters)
    (hf : out'.lease = none → out'.force = .none) : out'.LeaseLaw where
  atMostThree := by rw [hw]; exact h.atMostThree
  noneTwice := by rw [hw]; exact h.noneTwice
  unheld hn := ⟨by rw [hw]; exact (h.unheld (hl ▸ hn)).1, hf hn⟩
  neverHolder l hs := by rw [hw]; exact h.neverHolder l (hl ▸ hs)
  leaseRange l hs := h.leaseRange l (hl ▸ hs)
  waitRange w hm := h.waitRange w (hw ▸ hm)

/-- R78, R80: a lease granted now, to a port that is not waiting. -/
theorem Output.LeaseLaw.granted {d : Nat} (h : out.LeaseLaw) (hd : durationOk d = true)
    (hp : p ∉ out.waiters.map Waiter.port) : Output.LeaseLaw { out with lease := some (newLease p d) } where
  atMostThree := h.atMostThree
  noneTwice := h.noneTwice
  unheld := nofun
  neverHolder _ hl := Option.some.inj hl ▸ hp
  leaseRange _ hl := Option.some.inj hl ▸ ⟨hd, le_rfl⟩
  waitRange := h.waitRange

/-- R78: a port that neither holds nor waits joins the queue: with the holder there are four ports. -/
theorem Output.LeaseLaw.queued {l : Lease} {d : Nat} (h : out.LeaseLaw) (hl : out.lease = some l) (hp : l.holder ≠ p)
    (hw : p ∉ out.waiters.map Waiter.port) (hd : durationOk d = true) :
    Output.LeaseLaw { out with waiters := out.waiters ++ [{ port := p, duration := d }] } := by
  have hqueue : ((out.waiters.map Waiter.port) ++ [p]).Nodup :=
    List.nodup_append.2 ⟨h.noneTwice, List.nodup_singleton p, by rintro a ha _ hb rfl; exact hw (List.mem_singleton.1 hb ▸ ha)⟩
  have hholder : l.holder ∉ (out.waiters.map Waiter.port) ++ [p] := by
    simpa [hp] using h.neverHolder l hl
  constructor
  case atMostThree =>
    have hfour := (List.nodup_cons.2 ⟨hholder, hqueue⟩).length_le_card
    simp only [List.length_cons, List.length_append, List.length_map, Fintype.card_fin] at hfour ⊢
    omega
  case noneTwice => simpa using hqueue
  case unheld => exact fun hn => absurd (hl.symm.trans hn) nofun
  case neverHolder =>
    intro l' hl'
    obtain rfl := Option.some.inj (hl.symm.trans hl')
    simpa using hholder
  case leaseRange => exact h.leaseRange
  case waitRange =>
    intro w hm
    rcases List.mem_append.1 hm with hm | hm
    · exact h.waitRange w hm
    · exact List.mem_singleton.1 hm ▸ hd

/-- R79, R84: a port leaves the wait queue. -/
theorem Output.LeaseLaw.withoutWaiter (h : out.LeaseLaw) :
    Output.LeaseLaw { out with waiters := withoutWaiter p out.waiters } := by
  have hsub : List.Sublist (Machine.withoutWaiter p out.waiters) out.waiters := List.filter_sublist
  constructor
  case atMostThree => exact hsub.length_le.trans h.atMostThree
  case noneTwice => exact h.noneTwice.sublist (hsub.map _)
  case unheld => exact fun hn => ⟨by simp [Machine.withoutWaiter, (h.unheld hn).1], (h.unheld hn).2⟩
  case neverHolder => exact fun l hl hm => h.neverHolder l hl ((hsub.map _).subset hm)
  case leaseRange => exact h.leaseRange
  case waitRange => exact fun w hm => h.waitRange w (hsub.subset hm)

/-- R82: the head of the queue becomes holder; it waited once only, so that it waits no more. -/
theorem Output.LeaseLaw.endLease (h : out.LeaseLaw) : out.endLease.LeaseLaw := by
  unfold Output.endLease
  split
  · next hnil => exact ⟨hnil ▸ Nat.zero_le _, hnil ▸ List.nodup_nil, fun _ => ⟨hnil, rfl⟩, nofun, nofun, hnil ▸ nofun⟩
  · next w ws hws =>
    have hnodup := h.noneTwice
    rw [hws, List.map_cons, List.nodup_cons] at hnodup
    have hwait := h.waitRange
    rw [hws] at hwait
    have hthree := h.atMostThree
    rw [hws, List.length_cons] at hthree
    exact ⟨(Nat.le_succ _).trans hthree, hnodup.2, nofun, fun l hl => Option.some.inj hl ▸ hnodup.1,
      fun l hl => Option.some.inj hl ▸ ⟨hwait w (List.mem_cons_self ..), le_rfl⟩,
      fun w' hm => hwait w' (List.mem_cons_of_mem _ hm)⟩

theorem Output.LeaseLaw.tick (h : out.LeaseLaw) : out.tick.LeaseLaw := by
  unfold Output.tick
  split
  · exact h
  · next l hl =>
    split
    · exact h
    · have hrange := h.leaseRange l hl
      exact ⟨h.atMostThree, h.noneTwice, nofun, fun l' hl' => Option.some.inj hl' ▸ h.neverHolder l hl,
        fun l' hl' => Option.some.inj hl' ▸ ⟨hrange.1, (Nat.sub_le _ _).trans hrange.2⟩, h.waitRange⟩

/-- R91: the lease part of stage 5 of a teardown. -/
theorem Output.LeaseLaw.tearDown (h : out.LeaseLaw) : (out.tearDown p).LeaseLaw := by
  unfold Output.tearDown
  dsimp only
  split
  · exact h.withoutWaiter.endLease
  · exact h.withoutWaiter

end

/-! ### The requested value -/

theorem mem_members {map : BitVec 32} {z : ZoneId} : z ∈ members map ↔ map.getLsbD z.val = true := by
  simp [members]

/-- What a slot gives to the requested value of a line (R73): the membership of its zone and whether that is frozen. -/
def Slot.standing (sl : Slot) : Option (Membership × Bool) := sl.zone.map fun zn => (zn.membership, zn.frozen)

theorem contributes_eq (policy : LossPolicy) (sl : Slot) :
    contributes policy sl = sl.standing.any fun m => m.1 == .inside && (!m.2 || policy == .hold) := by
  unfold contributes Slot.standing
  cases sl.zone <;> rfl

/-- R73: the requested value depends on no more than the standing of the zones of the map, the force of a held output and
its policy. -/
theorem requestedValue_congr {zones zones' : Table 32 Slot} {out out' : Output} (hm : out'.map = out.map)
    (hp : out'.policy = out.policy) (hf : out'.force = out.force)
    (hl : out'.lease.isSome = out.lease.isSome ∨ out.force = .none)
    (hz : ∀ z ∈ members out.map, (zones'.get z).standing = (zones.get z).standing) :
    requestedValue zones' out' = requestedValue zones out := by
  have hmap : mapValue zones' out' = mapValue zones out := by
    unfold mapValue
    rw [hm, hp]
    refine Bool.eq_iff_iff.2 ?_
    simp only [List.any_eq_true]
    exact exists_congr fun z => and_congr_right fun hmem => by rw [contributes_eq, contributes_eq, hz z hmem]
  unfold requestedValue
  rw [hf, hmap]
  rcases hl with hl | hl
  · generalize out'.lease = a at hl ⊢
    generalize out.lease = b at hl ⊢
    match a, b, hl with
    | none, none, _ => rfl
    | some _, some _, _ => cases out.force <;> rfl
  · rw [hl]
    cases out'.lease <;> cases out.lease <;> rfl

/-! ### What a claim of the zone controller leaves of the output table -/

theorem State.OutputLaw.of_same {s t : State} (h : s.OutputLaw) (ho : t.outputs = s.outputs) (hd : t.drivers = s.drivers)
    (hh : t.ohold = s.ohold) (hz : ∀ z, (t.zones.get z).standing = (s.zones.get z).standing) : t.OutputLaw where
  leases o := by rw [ho]; exact h.leases o
  maps o z hm := by
    rw [ho] at hm
    have hsome := congrArg Option.isSome (hz z)
    simpa [Slot.standing, h.maps o z hm] using hsome
  values o := by
    rw [ho, h.values o]
    exact (requestedValue_congr rfl rfl rfl (.inl rfl) fun z _ => hz z).symm
  pins o := by rw [hd, ho, hh]; exact h.pins o

/-- R74, R75: the driver handed over after a claim holds the record's copies, and its pin follows. -/
theorem State.OutputLaw.driven {s : State} (h : s.OutputLaw) (outs : Table 8 Output) (o : Line) :
    (s.driven outs).get o =
      { requested := (outs.get o).requested, hold := (outs.get o).hold,
        pin := pinLevel s.ohold (outs.get o).hold (outs.get o).requested } := by
  rw [State.driven, Table.get_mapIdx]
  split
  · next hsame => rw [h.pins o, hsame.1, hsame.2]
  · rfl

/-- R74: the output records a claim stores, when each keeps the law of its lease, maps zones that are defined, and has the
requested value the rule gives. -/
theorem State.OutputLaw.commit {s t : State} (h : s.OutputLaw) (outs : Table 8 Output) (ho : t.outputs = outs)
    (hd : t.drivers = s.driven outs) (hh : t.ohold = s.ohold) (hl : ∀ o, (outs.get o).LeaseLaw)
    (hm : ∀ o, ∀ z ∈ members (outs.get o).map, (t.zones.get z).zone.isSome = true)
    (hv : ∀ o, (outs.get o).requested = requestedValue t.zones (outs.get o)) : t.OutputLaw where
  leases o := by rw [ho]; exact hl o
  maps o z hz := hm o z (ho ▸ hz)
  values o := by rw [ho]; exact hv o
  pins o := by rw [hd, hh, ho]; exact h.driven outs o

section

variable {s : State} {o : Line} {out : Output} {p : Port}

/-- R74, R93: one output record changed and recomputed. -/
theorem State.OutputLaw.setOutput (h : s.OutputLaw) (hl : out.LeaseLaw)
    (hm : ∀ z ∈ members out.map, (s.zones.get z).zone.isSome = true) : (s.setOutput o out).OutputLaw := by
  refine h.commit (s.outputs.put o (out.recompute s.zones)) rfl rfl rfl (fun o' => ?_) (fun o' => ?_) fun o' => ?_
  all_goals rw [Table.get_put]
  all_goals split
  · exact hl.of_same rfl rfl fun hn => (hl.unheld hn).2
  · exact h.leases o'
  · exact hm
  · exact h.maps o'
  · rfl
  · exact h.values o'

/-- R74: one output record changed in no input of its requested value. -/
theorem State.OutputLaw.keepOutput (h : s.OutputLaw) (hl : out.LeaseLaw) (hm : out.map = (s.outputs.get o).map)
    (hr : out.requested = (s.outputs.get o).requested) (hh : out.hold = (s.outputs.get o).hold)
    (hv : requestedValue s.zones out = requestedValue s.zones (s.outputs.get o)) : (s.keepOutput o out).OutputLaw := by
  constructor
  all_goals intro o'
  all_goals simp only [State.keepOutput, Table.get_put]
  all_goals split
  · exact hl
  · exact h.leases o'
  · rw [hm]
    exact h.maps o
  · exact h.maps o'
  · rw [hr, hv]
    exact h.values o
  · exact h.values o'
  · next he =>
    rw [hr, hh, ← he]
    exact h.pins o
  · exact h.pins o'

theorem State.OutputLaw.claimOutput {d : BitVec 16} {w : Bool} (h : s.OutputLaw) :
    (claimOutput p o d w s).1.OutputLaw := by
  have hlaw := h.leases o
  unfold Machine.claimOutput
  dsimp only
  split
  · exact h
  · next hd =>
    have hdur : durationOk d.toNat = true := by simpa using hd
    split
    · next hl =>
      obtain ⟨hnil, hforce⟩ := hlaw.unheld hl
      exact h.keepOutput (hlaw.granted hdur (by simp [hnil])) rfl rfl rfl
        (requestedValue_congr rfl rfl rfl (.inr hforce) fun _ _ => rfl)
    · next l hl =>
      split_ifs with hp
      · exact h
      · exact h
      · split
        · exact h
        · next hplace =>
          have hwait := (placeOf_isNone_iff p (s.outputs.get o).waiters).1 (by rw [hplace]; rfl)
          exact h.keepOutput (hlaw.queued hl hp hwait hdur) rfl rfl rfl rfl

theorem State.OutputLaw.renewLease {d : BitVec 16} (h : s.OutputLaw) : (renewLease p o d s).1.OutputLaw := by
  have hlaw := h.leases o
  unfold Machine.renewLease
  dsimp only
  split
  · exact h
  · next l hl =>
    split_ifs with hp hd
    · exact h
    · exact h
    all_goals
      obtain rfl := not_not.1 hp
      refine h.keepOutput (hlaw.granted ?_ (hlaw.neverHolder l hl)) rfl rfl rfl
        (requestedValue_congr rfl rfl rfl (.inl (by rw [hl]; rfl)) fun _ _ => rfl)
    · exact (hlaw.leaseRange l hl).1
    · next hzero => exact (by simpa using hd : ¬d = 0#16 → durationOk d.toNat = true) hzero

/-- R82: the end of a lease. -/
theorem State.OutputLaw.endLease {c : Cause} (h : s.OutputLaw) : (s.endLease o c).OutputLaw := by
  have hmap : (s.outputs.get o).endLease.map = (s.outputs.get o).map := by rw [Output.endLease_eq]
  exact (h.setOutput (h.leases o).endLease (hmap ▸ h.maps o)).of_same rfl rfl rfl fun _ => rfl

theorem State.OutputLaw.releaseOutput (h : s.OutputLaw) : (releaseOutput p o s).1.OutputLaw := by
  unfold Machine.releaseOutput
  dsimp only
  split
  · exact h
  · exact h.endLease

theorem State.OutputLaw.cancelWait (h : s.OutputLaw) : (cancelWait p o s).1.OutputLaw := by
  unfold Machine.cancelWait
  dsimp only
  split
  · exact h
  · exact h.keepOutput (h.leases o).withoutWaiter rfl rfl rfl rfl

/-- R86–R88: a change of its record by the holder of an output. -/
theorem State.OutputLaw.holderChange (h : s.OutputLaw) (hp : (s.outputs.get o).heldBy p = true)
    (hl : out.lease = (s.outputs.get o).lease) (hw : out.waiters = (s.outputs.get o).waiters)
    (hm : ∀ z ∈ members out.map, (s.zones.get z).zone.isSome = true) : (s.holderChange o out).1.OutputLaw := by
  obtain ⟨l, hheld, -⟩ := Output.heldBy_iff.1 hp
  exact h.setOutput ((h.leases o).of_same hl hw fun hn => absurd (hheld.symm.trans (hl.symm.trans hn)) nofun) hm

theorem State.OutputLaw.mapOutput {set : BitVec 32} (h : s.OutputLaw) : (mapOutput p o set s).1.OutputLaw := by
  unfold Machine.mapOutput
  dsimp only
  split
  · exact h
  · next hp =>
    split
    · exact h
    · next hnone =>
      refine h.holderChange (by simpa using hp) rfl rfl fun z hz => ?_
      exact Option.isSome_iff_ne_none.2 (by simpa using List.find?_eq_none.1 hnone z hz)

theorem State.OutputLaw.forceOutput {f : Force} (h : s.OutputLaw) : (forceOutput p o f s).1.OutputLaw := by
  unfold Machine.forceOutput
  dsimp only
  split
  · exact h
  · next hp => exact h.holderChange (by simpa using hp) rfl rfl (h.maps o)

theorem State.OutputLaw.configureOutput {pol : LossPolicy} {hold : Bool} (h : s.OutputLaw) :
    (configureOutput p o pol hold s).1.OutputLaw := by
  unfold Machine.configureOutput
  dsimp only
  split
  · exact h
  · next hp => exact h.holderChange (by simpa using hp) rfl rfl (h.maps o)

theorem State.OutputLaw.takeExpiry (h : s.OutputLaw) : (takeExpiry o s).OutputLaw := by
  have hlaw := h.leases o
  have hkept : (s.keepOutput o { s.outputs.get o with expiryClaim := false }).OutputLaw :=
    h.keepOutput (hlaw.of_same rfl rfl fun hn => (hlaw.unheld hn).2) rfl rfl rfl rfl
  unfold Machine.takeExpiry
  dsimp only
  split
  · split
    · exact hkept.endLease
    · exact hkept
  · exact hkept

/-- R77: a tick changes no input of a requested value. -/
theorem State.OutputLaw.tickLeases (h : s.OutputLaw) : s.tickLeases.OutputLaw := by
  have htick (out : Output) : out.tick.map = out.map ∧ out.tick.requested = out.requested ∧ out.tick.hold = out.hold ∧
      requestedValue s.zones out.tick = requestedValue s.zones out := by
    unfold Output.tick
    split
    · exact ⟨rfl, rfl, rfl, rfl⟩
    · next l hl =>
      split
      · exact ⟨rfl, rfl, rfl, rfl⟩
      · exact ⟨rfl, rfl, rfl, requestedValue_congr rfl rfl rfl (.inl (by rw [hl]; rfl)) fun _ _ => rfl⟩
  constructor
  all_goals intro o'
  all_goals simp only [State.tickLeases, Table.get_mapIdx]
  all_goals obtain ⟨hm, hr, hh, hv⟩ := htick (s.outputs.get o')
  · exact (h.leases o').tick
  · rw [hm]
    exact h.maps o'
  · rw [hr, hv]
    exact h.values o'
  · rw [hr, hh]
    exact h.pins o'

end

end Sys2Proof.Machine
end

section
/-!
PROOFS. The law of the output table and the drivers over the claims of the zone controller that change zones (R59, R74, R93), and
over every step.
-/

namespace Sys2Proof.Machine

variable {s t : State}

/-- R59, R74: a claim that recomputes the outputs whose map holds a touched zone. -/
theorem State.OutputLaw.recomputed (h : s.OutputLaw) {touched : ZoneId → Bool}
    (ho : t.outputs = recomputed t.zones touched s.outputs)
    (hd : t.drivers = s.driven (recomputed t.zones touched s.outputs)) (hh : t.ohold = s.ohold)
    (hsome : ∀ z, (t.zones.get z).zone.isSome = (s.zones.get z).zone.isSome)
    (hz : ∀ z, touched z = false → (t.zones.get z).standing = (s.zones.get z).standing) : t.OutputLaw := by
  refine h.commit _ ho hd hh (fun o => ?_) (fun o => ?_) fun o => ?_
  all_goals rw [Machine.recomputed, Table.get_mapIdx]
  all_goals split
  · exact (h.leases o).of_same rfl rfl fun hn => ((h.leases o).unheld hn).2
  · exact h.leases o
  · exact fun z hm => (hsome z).trans (h.maps o z hm)
  · exact fun z hm => (hsome z).trans (h.maps o z hm)
  · rfl
  · next hnone =>
    rw [h.values o]
    refine (requestedValue_congr rfl rfl rfl (.inl rfl) fun z hm => hz z ?_).symm
    exact Bool.eq_false_iff.2 fun htouched => hnone (List.any_eq_true.2 ⟨z, hm, htouched⟩)

theorem mem_members_and_not {m g : BitVec 32} {z : ZoneId} :
    z ∈ members (m &&& ~~~g) ↔ z ∈ members m ∧ g.getLsbD z.val = false := by
  have hz : z.val < 32 := z.isLt
  simp [mem_members, hz]

/-- R51, R52: a claim that removes zones from every map, and recomputes every output it changes otherwise. -/
theorem State.OutputLaw.removed (h : s.OutputLaw) (gone : BitVec 32) (outs : Table 8 Output) (ho : t.outputs = outs)
    (hd : t.drivers = s.driven outs) (hh : t.ohold = s.ohold) (hl : ∀ o, (outs.get o).LeaseLaw)
    (hm : ∀ o, (outs.get o).map = (s.outputs.get o).map &&& ~~~gone)
    (hz : ∀ z : ZoneId, gone.getLsbD z.val = false → (t.zones.get z).standing = (s.zones.get z).standing)
    (hv : ∀ o, (outs.get o).requested = requestedValue t.zones (outs.get o) ∨
      (outs.get o).map = (s.outputs.get o).map ∧ (outs.get o).policy = (s.outputs.get o).policy ∧
      (outs.get o).force = (s.outputs.get o).force ∧ (outs.get o).lease = (s.outputs.get o).lease ∧
      (outs.get o).requested = (s.outputs.get o).requested) : t.OutputLaw := by
  have hstays {o : Line} {z : ZoneId} (hmem : z ∈ members (outs.get o).map) :
      z ∈ members (s.outputs.get o).map ∧ (t.zones.get z).standing = (s.zones.get z).standing := by
    rw [hm, mem_members_and_not] at hmem
    exact ⟨hmem.1, hz z hmem.2⟩
  refine h.commit outs ho hd hh hl (fun o z hmem => ?_) fun o => ?_
  · obtain ⟨hold, hstanding⟩ := hstays hmem
    have hsome := congrArg Option.isSome hstanding
    simpa [Slot.standing, h.maps o z hold] using hsome
  · rcases hv o with hv | ⟨hmap, hp, hf, hlease, hr⟩
    · exact hv
    · rw [hr, h.values o]
      exact (requestedValue_congr hmap hp hf (.inl (by rw [hlease])) fun z hmem => (hstays (hmap.symm ▸ hmem)).2).symm

/-! ### The messages of the paths -/

/-- An evaluation leaves every slot defined or EMPTY as it was. -/
theorem isSome_evaluated (ax : Axis) (f : Evaluation) (zones : Table 32 Slot) (z : ZoneId) :
    ((evaluated ax f zones).get z).zone.isSome = (zones.get z).zone.isSome := by
  rw [evaluated, Table.get_mapIdx]
  unfold Slot.onAxis
  cases hz : (zones.get z).zone with
  | none => simp [hz]
  | some zn =>
    by_cases hax : zn.axis = ax
    · simp [hax]
    · simp [hax, hz]

/-- An evaluation that keeps frozen what is frozen changes the standing only of a zone whose membership it changes. -/
theorem standing_evaluated {ax : Axis} {f : Evaluation} {zones : Table 32 Slot} {z : ZoneId}
    (hf : ∀ z g zn, (f z g zn).1.frozen = zn.frozen)
    (h : membershipChanged zones (evaluated ax f zones) z = false) :
    ((evaluated ax f zones).get z).standing = (zones.get z).standing := by
  have hm : (zones.get z).zone.map Zone.membership = ((evaluated ax f zones).get z).zone.map Zone.membership := by
    simpa [membershipChanged] using h
  cases hz : ((evaluated ax f zones).get z).zone with
  | none =>
    have hnone : (zones.get z).zone = none := by simpa [hz] using hm
    rw [Slot.standing, Slot.standing, hz, hnone]
  | some zn' =>
    obtain ⟨zn, hzn, hcase⟩ := evaluated_cases hz
    have hfr : zn'.frozen = zn.frozen := by
      rcases hcase with ⟨-, rfl⟩ | ⟨-, rfl⟩
      · exact hf ..
      · rfl
    rw [hz, hzn] at hm
    have hmem : zn.membership = zn'.membership := by simpa using hm
    rw [Slot.standing, Slot.standing, hz, hzn, Option.map_some, Option.map_some, hfr, hmem]

/-- An evaluation leaves a zone of another axis as it is. -/
theorem evaluated_offAxis {ax : Axis} {f : Evaluation} {zones : Table 32 Slot} {z : ZoneId}
    (h : ((zones.get z).onAxis ax).isSome = false) : (evaluated ax f zones).get z = zones.get z := by
  have hnone : (zones.get z).onAxis ax = none := by simpa using h
  rw [evaluated, Table.get_mapIdx, hnone]

theorem State.OutputLaw.pathTaken {c : Instr} {ax : Axis} (hc : pathTaken c = some ax) (h : s.OutputLaw)
    (ht : exec c s = .next t) : t.OutputLaw := by
  cases c
  case sample =>
    cases hc
    simp only [exec, execSample] at ht
    split at ht <;> injection ht with ht <;> subst ht
    · refine h.recomputed rfl rfl rfl (isSome_evaluated _ _ _) fun z hz => standing_evaluated (fun _ _ _ => ?_) hz
      unfold sampleEvaluation
      split <;> rfl
    · exact h
  case rebaseNotice =>
    cases hc
    simp only [exec, execRebaseNotice] at ht
    split at ht <;> injection ht with ht <;> subst ht
    · refine h.recomputed rfl rfl rfl (isSome_evaluated _ _ _) fun z hz => standing_evaluated (fun _ _ _ => ?_) hz
      unfold rebaseEvaluation
      split <;> rfl
    · exact h
  case freezeNotice =>
    cases hc
    simp only [exec, execFreezeNotice] at ht
    split at ht <;> injection ht with ht <;> subst ht
    · exact h.recomputed rfl rfl rfl (isSome_evaluated _ _ _) fun z hz => congrArg _ (evaluated_offAxis hz)
    · exact h
  case thawNotice =>
    cases hc
    simp only [exec, execThawNotice] at ht
    split at ht <;> injection ht with ht <;> subst ht
    · exact h.recomputed rfl rfl rfl (isSome_evaluated _ _ _) fun z hz => congrArg _ (evaluated_offAxis hz)
    · exact h
  all_goals exact nomatch hc

/-! ### The requests of the zone table -/

section

variable {p : Port} {z : ZoneId} {g : BitVec 16}

/-- A slot put in place whose standing is that of the slot it replaces, or that no map holds. -/
theorem State.OutputLaw.setSlot {sl : Slot} (h : s.OutputLaw)
    (hz : (∀ o, z ∉ members (s.outputs.get o).map) ∨ sl.standing = (s.zones.get z).standing) : (s.setSlot z sl).OutputLaw := by
  rcases hz with hno | hz
  · have hslot {o : Line} {z' : ZoneId} (hm : z' ∈ members (s.outputs.get o).map) :
        (s.setSlot z sl).zones.get z' = s.zones.get z' :=
      Table.get_put_other _ (fun he : z = z' => hno o (he ▸ hm)) _
    refine ⟨h.leases, fun o z' hm => ?_, fun o => (h.values o).trans ?_, h.pins⟩
    · rw [hslot hm]
      exact h.maps o z' hm
    · exact (requestedValue_congr rfl rfl rfl (.inl rfl) fun z' hm => congrArg _ (hslot hm)).symm
  · refine h.of_same rfl rfl rfl fun z' => ?_
    simp only [State.setSlot, Table.get_put]
    split
    · next he => exact he ▸ hz
    · rfl

theorem State.OutputLaw.defineZone {ax : Axis} {lo up : Int} {gd : BitVec 16} {c : CaptureFlags} {f : Option Filter}
    (h : s.OutputLaw) : (defineZone p ax lo up gd c f s).1.OutputLaw := by
  unfold Machine.defineZone
  dsimp only
  split
  · exact h
  · next z hz =>
    split_ifs
    · exact h
    · exact h
    · have hempty : z ∈ s.zones.having fun sl => sl.zone.isNone := List.mem_of_head? hz
      refine h.setSlot (.inl fun o hm => ?_)
      rw [Table.mem_having, Option.isNone_iff_eq_none] at hempty
      exact nomatch hempty ▸ h.maps o z hm

theorem State.OutputLaw.modifyZone {lo up : Int} {gd : BitVec 16} {c : CaptureFlags} (h : s.OutputLaw) :
    (modifyZone p z g lo up gd c s).1.OutputLaw := by
  unfold Machine.modifyZone
  dsimp only
  split
  · exact h
  · next zn hzn =>
    split_ifs
    · exact h
    · exact h
    · exact h
    · split
      · exact h
      · refine h.recomputed rfl rfl rfl (fun z' => ?_) fun z' hz' => ?_
        · simp only [State.zoneClaim, State.hand, State.commitOutputs, Table.get_put]
          split
          · next he =>
            rw [← he, hzn]
            rfl
          · rfl
        · simp only [State.zoneClaim, State.hand, State.commitOutputs, membershipChanged, Table.get_put] at hz' ⊢
          split
          · next he =>
            subst he
            have hmem : zn.membership = (modifiedZone (s.views.get zn.axis).last lo up gd c zn).membership := by
              simpa [hzn] using hz'
            rw [Slot.standing, Slot.standing, hzn, Option.map_some, Option.map_some, hmem]
            rfl
          · rfl

/-- R51: a zone that leaves every map with its deletion. -/
theorem State.OutputLaw.deleteZone (h : s.OutputLaw) : (deleteZone p z g s).1.OutputLaw := by
  unfold Machine.deleteZone
  dsimp only
  split
  · exact h
  · split_ifs
    · exact h
    · exact h
    · split
      · exact h
      · refine h.removed (zoneBit z) _ rfl rfl rfl (fun o => ?_) (fun o => ?_) (fun z' hz' => ?_) fun o => ?_
        all_goals simp only [State.hand, State.commitOutputs, deletedOutputs_zoneBit, Table.get_mapIdx]
        · split
          · exact (h.leases o).of_same rfl rfl fun hn => ((h.leases o).unheld hn).2
          · exact h.leases o
        · split
          · rfl
          · next hno => exact (and_not_zoneBit_of_absent (by simpa using hno)).symm
        · have hne : z ≠ z' := fun he => by rw [getLsbD_zoneBit, he, decide_eq_true rfl] at hz'; cases hz'
          exact congrArg Slot.standing (Table.get_put_other _ hne _)
        · split
          · exact .inl rfl
          · exact .inr ⟨rfl, rfl, rfl, rfl, rfl⟩

theorem State.OutputLaw.subscribeZone {f : Filter} (h : s.OutputLaw) : (subscribeZone p z g f s).1.OutputLaw := by
  unfold Machine.subscribeZone
  dsimp only
  split
  · exact h
  · next zn hzn =>
    split_ifs
    · exact h
    · exact h.setSlot (.inr (by rw [Slot.standing, Slot.standing, hzn]; rfl))

theorem State.OutputLaw.unsubscribeZone (h : s.OutputLaw) : (unsubscribeZone p z s).1.OutputLaw := by
  unfold Machine.unsubscribeZone
  dsimp only
  split
  · exact h
  · next zn hzn =>
    split_ifs
    · exact h
    · exact h.setSlot (.inr (by rw [Slot.standing, Slot.standing, hzn]; rfl))

/-! ### Stage 5 of a teardown -/

theorem getLsbD_zoneSet (f : ZoneId → Bool) (z : ZoneId) : (zoneSet f).getLsbD z.val = f z := by
  simp [zoneSet]

/-- R91: the lease part of stage 5 at an output that the port does not hold. -/
theorem Output.tearDown_of_not_held {out : Output} (h : out.heldBy p = false) :
    out.tearDown p = { out with waiters := withoutWaiter p out.waiters } := if_neg (Bool.not_eq_true _ ▸ h)

theorem Output.tearDown_map (out : Output) : (out.tearDown p).map = out.map := by
  unfold Output.tearDown
  dsimp only
  split
  · rw [Output.endLease_eq]
  · rfl

theorem Slot.standing_tearDown {sl : Slot} (h : sl.authoredBy p = false) : (sl.tearDown p).standing = sl.standing := by
  rw [Slot.tearDown, if_neg (Bool.not_eq_true _ ▸ h), Slot.unsubscribe, Slot.standing, Option.map_map]
  rfl

/-- The set of the zones that a port authors. -/
def State.authoredSet (p : Port) (s : State) : BitVec 32 := zoneSet fun z => (s.zones.get z).authoredBy p

/-- R91, R52: an output record after stage 5, before it is recomputed. -/
def State.tornOutput (p : Port) (s : State) (out : Output) : Output :=
  { out.tearDown p with map := out.map &&& ~~~s.authoredSet p }

/-- R91, R52: the output records that stage 5 of a port's teardown stores. -/
def State.tornOutputs (p : Port) (s : State) : Table 8 Output :=
  s.outputs.mapIdx fun _ out =>
    if out.map &&& s.authoredSet p = 0 ∧ out.heldBy p = false then s.tornOutput p out
    else (s.tornOutput p out).recompute (s.zones.mapIdx fun _ sl => sl.tearDown p)

/-- R91, R52: the events of stage 5. -/
def State.tornEvents (p : Port) (s : State) : List (Port × Event) :=
  tearDownLeaseEvents p s.timebase s.outputs ++
    (List.finRange 32).flatMap (tearDownZoneEvents p s (s.outputs.mapIdx fun _ out => out.tearDown p))

theorem zoneTearDown_eq (p : Port) (s : State) :
    zoneTearDown p s =
      (State.commitOutputs (s.tornOutputs p) { s with zones := s.zones.mapIdx fun _ sl => sl.tearDown p }).hand
        .zoneController (s.tornEvents p) := by
  have houts : s.tornOutputs p =
      (unmapped (s.authoredSet p) (s.outputs.mapIdx fun _ out => Output.tearDown p out)).mapIdx fun o out =>
        if ((s.outputs.mapIdx fun _ out => Output.tearDown p out).get o).map &&& s.authoredSet p = 0 ∧
            !(s.outputs.get o).heldBy p then out
        else out.recompute (s.zones.mapIdx fun _ sl => sl.tearDown p) := by
    rw [unmapped, Table.mapIdx_mapIdx, Table.mapIdx_mapIdx]
    refine Table.mapIdx_congr fun o => ?_
    simp only [Bool.not_eq_true']
    rw [Table.get_mapIdx, Output.tearDown_map]
    rfl
  rw [houts]
  rfl

/-- R52, R91: what stage 5 leaves as it is of an output that the port does not hold and that maps none of its zones. -/
theorem tornOutput_of_apart {out : Output} (hm : out.map &&& s.authoredSet p = 0) (hp : out.heldBy p = false) :
    s.tornOutput p out = { out with waiters := withoutWaiter p out.waiters } := by
  have hmap : out.map &&& ~~~s.authoredSet p = out.map := by
    refine BitVec.eq_of_getLsbD_eq fun i hi => ?_
    have hbit : (out.map &&& s.authoredSet p).getLsbD i = false := by rw [hm]; exact BitVec.getLsbD_zero
    rw [BitVec.getLsbD_and] at hbit ⊢
    rw [BitVec.getLsbD_not]
    cases hb : out.map.getLsbD i <;> simp_all
  rw [State.tornOutput, hmap, Output.tearDown_of_not_held hp]

theorem State.OutputLaw.tearDown (h : s.OutputLaw) : (zoneTearDown p s).OutputLaw := by
  rw [zoneTearDown_eq]
  refine h.removed (s.authoredSet p) (s.tornOutputs p) (by rw [State.hand_outputs, State.commitOutputs_outputs])
    (by rw [State.hand_drivers, State.commitOutputs_eq]; rfl)
    (by rw [State.hand_ohold, State.commitOutputs_ohold]) (fun o => ?_) (fun o => ?_)
    (fun z hz => ?_) fun o => ?_
  · have hlaw := (h.leases o).tearDown (p := p)
    rw [State.tornOutputs, Table.get_mapIdx]
    split <;> exact hlaw.of_same rfl rfl fun hn => (hlaw.unheld hn).2
  · rw [State.tornOutputs, Table.get_mapIdx]
    split <;> rfl
  · rw [State.authoredSet, getLsbD_zoneSet] at hz
    rw [State.hand_zones, State.commitOutputs_zones, Table.get_mapIdx]
    exact Slot.standing_tearDown hz
  · rw [State.tornOutputs, Table.get_mapIdx]
    split
    · next hkept =>
      rw [tornOutput_of_apart hkept.1 hkept.2]
      exact .inr ⟨rfl, rfl, rfl, rfl, rfl⟩
    · exact .inl rfl

end

/-! ### Every step -/

theorem State.outputLaw_resetBlocks (s : State) : s.resetBlocks.OutputLaw := by
  constructor
  all_goals intro o
  all_goals simp only [State.resetBlocks, Table.get_all]
  · exact ⟨Nat.zero_le _, List.nodup_nil, fun _ => ⟨rfl, rfl⟩, nofun, nofun, nofun⟩
  · intro z hz
    simp [mem_members, Output.reset] at hz
  · simp [Output.reset, requestedValue, mapValue, members]
  · cases s.ohold <;> rfl

/-- R76: a change of OHOLD moves the pins alone. -/
theorem State.OutputLaw.oholdChange (h : s.OutputLaw) (b : Bool) :
    State.OutputLaw { s with ohold := b, drivers := s.drivers.mapIdx fun _ d => d.drive b } where
  leases := h.leases
  maps := h.maps
  values := h.values
  pins o := by
    rw [Table.get_mapIdx, h.pins o]
    rfl

/-- The requests of the zone table that leave every output record as it is. -/
theorem State.OutputLaw.of_keeps_lines {c : Instr} (hc : touchesLines c = false) (h : s.OutputLaw)
    (ht : exec c s = .next t) : t.OutputLaw := by
  have hport (p : Port) (u : PortUnit) (s : State) (h : s.OutputLaw) : (s.setPort p u).OutputLaw :=
    h.of_same rfl rfl rfl fun _ => rfl
  cases hz : touchesZones c with
  | false =>
    have hlines := of_exec_next (keeps_lines c s hc) ht
    have hzones := of_exec_next (keeps_zones c s hz) ht
    simp only [Prod.mk.injEq] at hlines
    obtain ⟨ho, hd, hh⟩ := hlines
    exact h.of_same ho hd hh fun z => by rw [hzones]
  | true =>
    have hboth : (touchesZones c && !touchesLines c) = true := by rw [hz, hc]; rfl
    cases c
    case defineZone => exact claim_keeps_of_work hport (fun _ h => h.defineZone) h ht
    case subscribeZone => exact claim_keeps_of_work hport (fun _ h => h.subscribeZone) h ht
    case unsubscribeZone => exact claim_keeps_of_work hport (fun _ h => h.unsubscribeZone) h ht
    all_goals exact nomatch (show false = true from hboth)

theorem State.OutputLaw.tick (h : s.OutputLaw) : s.tick.OutputLaw := by
  have hpassed : State.OutputLaw { s.passTime (Config.tickSpacing - s.sinceTick) with sinceTick := 0 } :=
    h.of_same rfl rfl rfl fun _ => rfl
  exact hpassed.tickLeases

theorem State.OutputLaw.exec (c : Instr) (s t : State) (h : s.OutputLaw) (ht : exec c s = .next t) : t.OutputLaw := by
  have hport (p : Port) (u : PortUnit) (s : State) (h : s.OutputLaw) : (s.setPort p u).OutputLaw :=
    h.of_same rfl rfl rfl fun _ => rfl
  cases hc : touchesLines c with
  | false => exact h.of_keeps_lines hc ht
  | true =>
    cases c
    case sample | rebaseNotice | freezeNotice | thawNotice => exact h.pathTaken rfl ht
    case modifyZone => exact claim_keeps_of_work hport (fun _ h => h.modifyZone) h ht
    case deleteZone => exact claim_keeps_of_work hport (fun _ h => h.deleteZone) h ht
    case claimOutput => exact claim_keeps_of_work hport (fun _ h => h.claimOutput) h ht
    case renewLease => exact claim_keeps_of_work hport (fun _ h => h.renewLease) h ht
    case releaseOutput => exact claim_keeps_of_work hport (fun _ h => h.releaseOutput) h ht
    case cancelWait => exact claim_keeps_of_work hport (fun _ h => h.cancelWait) h ht
    case mapOutput => exact claim_keeps_of_work hport (fun _ h => h.mapOutput) h ht
    case forceOutput => exact claim_keeps_of_work hport (fun _ h => h.forceOutput) h ht
    case configureOutput => exact claim_keeps_of_work hport (fun _ h => h.configureOutput) h ht
    case leaseTick =>
      injection ht with ht
      subst ht
      split
      · exact h
      · exact h.tick
    case leaseExpiry =>
      simp only [Machine.exec, execLeaseExpiry] at ht
      split at ht <;> injection ht with ht <;> subst ht
      · exact h.takeExpiry
      · exact h
    case oholdChange =>
      injection ht with ht
      subst ht
      exact h.oholdChange _
    case teardownStage5 =>
      injection ht with ht
      subst ht
      split
      · exact hport _ _ _ h.tearDown
      · exact h
    case rstnAssert | supplyBelowRange =>
      injection ht with ht
      subst ht
      exact s.outputLaw_resetBlocks.of_same rfl rfl rfl fun _ => rfl
    all_goals exact nomatch (show false = true from hc)

end Sys2Proof.Machine

namespace Sys2Proof.LawsKept

open Machine

/-- Settles O58: a claim that changes a record or a zone stores records that keep the law of their lease, map defined zones and
have the value the rule gives, and hands the changed values to the drivers. -/
theorem outputLawKept : Obligations.OutputLawKept :=
  step_keeps (fun _ _ h => h.of_same rfl rfl rfl fun _ => rfl)
    (fun s h => by
      rcases microsecond_cases s with ⟨_, hs⟩ | ⟨_, _, hs⟩ | ⟨_, _, hs⟩ <;> rw [hs]
      · exact h
      · exact h.tick
      · exact h.of_same rfl rfl rfl fun _ => rfl)
    State.OutputLaw.exec

end Sys2Proof.LawsKept
end

section
/-!
PROOFS. The law of the capture ring and its cursors (R123, R125, R127).
-/

namespace Sys2Proof.Machine

/-! ### Numbers in the ring -/

theorem endsBefore_cons {w : Nat} {l : List (BitVec w)} {x n : BitVec w} (h : endsBefore (x :: l) n) :
    x + BitVec.ofNat w (l.length + 1) = n := by
  induction l generalizing x with
  | nil => exact h
  | cons y ys ih =>
    obtain ⟨rfl, hy⟩ := h
    rw [← ih hy, BitVec.add_assoc, List.length_cons, Nat.add_comm (ys.length + 1) 1, BitVec.ofNat_add 1]
    rfl

/-- The records behind a record of a list numbered up to `n` fill the numbers from it to `n`. -/
theorem endsBefore_mem {w : Nat} {l : List (BitVec w)} {x n : BitVec w} (h : endsBefore l n) (hx : x ∈ l) :
    ∃ k, k < l.length ∧ x + BitVec.ofNat w (k + 1) = n := by
  obtain ⟨a, b, rfl⟩ := List.append_of_mem hx
  refine ⟨b.length, by simp; omega, endsBefore_cons ?_⟩
  simpa using endsBefore_drop h a.length

/-- R125: a cursor whose next number is `k` below the number after the counter has `k` records to read. -/
theorem toRead_of_add {counter next : Word} {k : Nat} (hk : k < 2 ^ 32) (h : next + BitVec.ofNat 32 k = counter + 1) :
    toRead counter next = k := by
  have hsub : counter - next + 1 = BitVec.ofNat 32 k := by
    rw [BitVec.sub_add_comm, ← h, BitVec.add_comm next, BitVec.add_sub_cancel]
  rw [toRead, hsub, BitVec.toNat_ofNat, Nat.mod_eq_of_lt hk]

/-- R125: the next number of a cursor with `k` records to read. -/
theorem next_of_toRead {counter next : Word} {k : Nat} (h : toRead counter next = k) :
    next + BitVec.ofNat 32 k = counter + 1 := by
  rw [← h, toRead, BitVec.ofNat_toNat, BitVec.setWidth_eq]
  bv_omega

/-- R125: a record more to read after a write. -/
theorem toRead_succ {counter next : Word} (h : toRead counter next ≤ 64) :
    toRead (counter + 1) next = toRead counter next + 1 := by
  refine toRead_of_add (by omega) ?_
  rw [BitVec.ofNat_add, ← BitVec.add_assoc, next_of_toRead rfl]
  rfl

namespace CaptureUnit.Law

variable {c : CaptureUnit} {r : CaptureRecord} {p : Port}

/-- R125: a cursor at a record of the ring has that record to read, and no more than the ring holds. -/
theorem toRead_mem (h : c.Law) (hr : r ∈ c.ring) :
    1 ≤ toRead c.counter r.sequence ∧ toRead c.counter r.sequence ≤ c.ring.length := by
  obtain ⟨k, hk, hnext⟩ := endsBefore_mem h.numbered (List.mem_map_of_mem hr)
  rw [List.length_map] at hk
  have hcap := h.capacity
  rw [toRead_of_add (by omega) hnext]
  omega

/-- R129: a cursor behind a record of the ring. -/
theorem toRead_after (h : c.Law) (hr : r ∈ c.ring) : toRead c.counter (r.sequence + 1) ≤ c.ring.length := by
  obtain ⟨k, hk, hnext⟩ := endsBefore_mem h.numbered (List.mem_map_of_mem hr)
  rw [List.length_map] at hk
  have hcap := h.capacity
  rw [Nat.add_comm k 1, BitVec.ofNat_add, ← BitVec.add_assoc] at hnext
  exact (toRead_of_add (by omega) hnext).le.trans hk.le

/-- A cursor placed, or taken away. -/
theorem setCursor (h : c.Law) {k : Option Cursor}
    (hk : ∀ k', k = some k' → toRead c.counter k'.next ≤ c.ring.length ∧ k'.skip = 0) :
    CaptureUnit.Law { c with cursors := c.cursors.put p k } := by
  refine ⟨h.capacity, h.numbered, fun q k' hq => ?_, fun q k' hq hzero => ?_⟩
  all_goals rw [Table.get_put] at hq
  all_goals split at hq
  · exact (hk k' hq).1
  · exact h.places q k' hq
  · exact (hk k' hq).2
  · exact h.caughtUp q k' hq hzero

/-- R123: a record written while the ring has room. -/
theorem write_room (h : c.Law) {r : CaptureRecord} (hroom : c.ring.length < 64) (hr : r.sequence = c.counter + 1) :
    CaptureUnit.Law { c with ring := c.ring ++ [r], counter := c.counter + 1 } := by
  have hmore (q : Port) (k : Cursor) (hk : c.cursors.get q = some k) :=
    toRead_succ ((h.places q k hk).trans h.capacity)
  constructor
  case capacity =>
    rw [List.length_append]
    exact hroom
  case numbered =>
    rw [List.map_append, List.map_singleton, hr]
    exact endsBefore_append h.numbered
  case places =>
    intro q k hk
    rw [hmore q k hk, List.length_append]
    exact Nat.succ_le_succ (h.places q k hk)
  case caughtUp =>
    intro q k hk hzero
    rw [hmore q k hk] at hzero
    exact nomatch hzero

/-- R123, R127: a record written in a full ring: a cursor at the oldest record has 64 to read, moves forward by one and has
64 to read again; any other has fewer than 64. -/
theorem write_full (h : c.Law) {r gone : CaptureRecord} {rest : List CaptureRecord} (hring : c.ring = gone :: rest)
    (hfull : c.ring.length = 64) (hr : r.sequence = c.counter + 1) :
    CaptureUnit.Law
      { c with
        ring := rest ++ [r]
        counter := c.counter + 1
        cursors := c.cursors.mapIdx fun _ k => k.map (Cursor.overtaken gone.sequence) } := by
  have hlen : rest.length = 63 := by simpa [hring] using hfull
  have hnumbered := h.numbered
  rw [hring, List.map_cons] at hnumbered
  have hoverall (q : Port) (k' : Cursor)
      (hk' : (c.cursors.mapIdx fun _ k => k.map (Cursor.overtaken gone.sequence)).get q = some k') :
      1 ≤ toRead (c.counter + 1) k'.next ∧ toRead (c.counter + 1) k'.next ≤ 64 := by
    rw [Table.get_mapIdx] at hk'
    obtain ⟨k, hk, rfl⟩ := Option.map_eq_some_iff.1 hk'
    have hplace := (h.places q k hk).trans h.capacity
    unfold Cursor.overtaken
    split
    · next hgone =>
      have hold : k.next + BitVec.ofNat 32 64 = c.counter + 1 := by
        have hhead := endsBefore_cons hnumbered
        rwa [List.length_map, hlen, ← hgone] at hhead
      have hnew : k.next + 1 + BitVec.ofNat 32 64 = c.counter + 1 + 1 := by rw [← hold]; bv_omega
      rw [toRead_of_add (by decide) hnew]
      exact ⟨by decide, le_rfl⟩
    · next hgone =>
      have hlt : toRead c.counter k.next ≠ 64 := fun heq => hgone <| by
        have hhead := endsBefore_cons hnumbered
        rw [List.length_map, hlen, ← next_of_toRead heq] at hhead
        exact (add_right_cancel hhead).symm
      rw [toRead_succ hplace]
      omega
  constructor
  case capacity => simp [hlen]
  case numbered =>
    rw [List.map_append, List.map_singleton, hr]
    exact endsBefore_append (endsBefore_drop hnumbered 1)
  case places => exact fun q k hk => (hoverall q k hk).2.trans (by simp [hlen])
  case caughtUp => exact fun q k hk hzero => absurd hzero (Nat.one_le_iff_ne_zero.1 (hoverall q k hk).1)

/-- R123, R127: the capture unit writes a record. -/
theorem write (h : c.Law) {mk : Word → CaptureRecord} (hmk : ∀ n, (mk n).sequence = n) : (c.write mk).Law := by
  unfold CaptureUnit.write overwritten Config.ringMax
  dsimp only
  by_cases hfull : 64 ≤ c.ring.length
  · rw [if_pos hfull]
    cases hring : c.ring with
    | nil => rw [hring] at hfull; cases hfull
    | cons gone rest => exact h.write_full hring (le_antisymm h.capacity hfull) (hmk _)
  · rw [if_neg hfull]
    exact h.write_room (not_le.1 hfull) (hmk _)

end CaptureUnit.Law

/-! ### The commands -/

variable {s : State} {p : Port}

/-- What is left to write does not bear on the law. -/
theorem CaptureUnit.Law.withWaiting {c : CaptureUnit} (h : c.Law) (l : List CaptureClaim) :
    CaptureUnit.Law { c with waiting := l } := ⟨h.capacity, h.numbered, h.places, h.caughtUp⟩

theorem CaptureUnit.law_reset : CaptureUnit.reset.Law where
  capacity := Nat.zero_le _
  numbered := trivial
  places p k hk := by rw [CaptureUnit.reset, Table.get_all] at hk; exact nomatch hk
  caughtUp p k hk := by rw [CaptureUnit.reset, Table.get_all] at hk; exact nomatch hk

theorem attachCursor_law {mode : CursorMode} (h : s.capture.Law) : (attachCursor p mode s).1.capture.Law := by
  refine h.setCursor fun k hk => ?_
  obtain rfl := Option.some.inj hk
  refine ⟨?_, rfl⟩
  unfold attachPlace
  split
  · next r rest hring => exact (h.toRead_mem (hring ▸ List.mem_cons_self ..)).2
  · rw [toRead_of_add (k := 0) (by decide) (by simp)]
    exact Nat.zero_le _

theorem detachCursor_law (h : s.capture.Law) : (detachCursor p s).1.capture.Law := by
  unfold detachCursor
  split
  · exact h
  · exact h.setCursor nofun

theorem readCaptures_law {m : Byte} (h : s.capture.Law) : (readCaptures p m s).1.capture.Law := by
  unfold readCaptures
  split
  · exact h
  · split
    · exact h
    · next c hc =>
      refine h.setCursor fun k hk => ?_
      obtain rfl := Option.some.inj hk
      refine ⟨?_, rfl⟩
      unfold nextAfter
      split
      · exact h.places p c hc
      · next r hlast =>
        have hmem : r ∈ readRecords m.toNat c s.capture := List.mem_of_getLast? hlast
        exact h.toRead_after (List.mem_of_mem_drop (List.mem_of_mem_take hmem))

theorem captureLaw_exec (c : Instr) (s t : State) (h : s.capture.Law) (ht : exec c s = .next t) : t.capture.Law := by
  have hport (p : Port) (u : PortUnit) (s : State) (h : s.capture.Law) : (s.setPort p u).capture.Law := h
  cases hc : touchesCapture c with
  | false => rw [of_exec_next (keeps_capture c s hc) ht]; exact h
  | true =>
    cases c
    case sample ax =>
      simp only [exec, execSample] at ht
      split at ht <;> injection ht with ht <;> subst ht
      · exact h.withWaiting _
      · exact h
    case latchSnapshotWrite =>
      simp only [exec, execLatchSnapshotWrite] at ht
      split at ht <;> injection ht with ht <;> subst ht
      · exact h
      · exact h.write fun _ => rfl
    case zoneCaptureClaim =>
      simp only [exec, execZoneCaptureClaim] at ht
      split at ht <;> injection ht with ht <;> subst ht
      · exact h
      · exact (h.withWaiting _).write fun _ => rfl
    case attachCursor => exact claim_keeps_of_work (P := fun s => s.capture.Law) hport (fun _ h => attachCursor_law h) h ht
    case detachCursor => exact claim_keeps_of_work (P := fun s => s.capture.Law) hport (fun _ h => detachCursor_law h) h ht
    case readCaptures => exact claim_keeps_of_work (P := fun s => s.capture.Law) hport (fun _ h => readCaptures_law h) h ht
    case teardownStage3 =>
      injection ht with ht
      subst ht
      split
      · exact h.setCursor nofun
      · exact h
    case rstnAssert | supplyBelowRange =>
      injection ht with ht
      subst ht
      exact CaptureUnit.law_reset
    all_goals exact nomatch (show false = true from hc)

end Sys2Proof.Machine

namespace Sys2Proof.LawsKept

open Machine

/-- Settles O59: the ring holds the numbers up to the counter without a gap, so that a cursor is placed by what it has to read: a
write adds one to that, and a cursor at the overwritten record moves on. -/
theorem captureLawKept : Obligations.CaptureLawKept :=
  step_keeps (P := fun s => s.capture.Law) (fun _ _ h => h)
    (fun s h => by rcases microsecond_cases s with ⟨_, hs⟩ | ⟨_, _, hs⟩ | ⟨_, _, hs⟩ <;> rw [hs] <;> exact h)
    captureLaw_exec

end Sys2Proof.LawsKept
end

section
/-!
PROOFS. The law of the message pool (R133–R135, R140). It stands on the law of the session: a request in flight to the relay
is one of a port whose session the relay still knows.
-/

namespace Sys2Proof.Machine

/-! ### The lowest free id -/

theorem toNat_byteOf {k : Nat} (h : k < 256) : (byteOf k).toNat = k := by
  rw [byteOf, BitVec.toNat_ofNat, Nat.mod_eq_of_lt h]

theorem idFree_iff {pool : List Message} {k : Nat} : idFree pool k = true ↔ byteOf k ∉ pool.map Message.id := by
  simp [idFree]

/-- R134: among one id more than there are messages, one is free. -/
theorem exists_idFree {pool : List Message} (h : pool.length < 16) : ∃ k ∈ List.range (pool.length + 1), idFree pool k = true := by
  by_contra hno
  have hused : (List.range (pool.length + 1)).map byteOf ⊆ pool.map Message.id := by
    intro b hb
    obtain ⟨k, hk, rfl⟩ := List.mem_map.1 hb
    by_contra hfree
    exact hno ⟨k, hk, idFree_iff.2 hfree⟩
  have hapart : ((List.range (pool.length + 1)).map byteOf).Nodup := by
    refine List.Nodup.map_on (fun a ha b hb hab => ?_) List.nodup_range
    rw [List.mem_range] at ha hb
    rw [← toNat_byteOf (k := a) (by omega), hab, toNat_byteOf (by omega)]
  have hle := (List.subperm_of_subset hapart hused).length_le
  simp at hle

/-- R134: the lowest free id is free, and no larger than the number of messages. -/
theorem lowestId_free {pool : List Message} (h : pool.length < 16) :
    lowestId pool ∉ pool.map Message.id ∧ (lowestId pool).toNat ≤ pool.length := by
  unfold lowestId
  cases hk : (List.range (pool.length + 1)).find? (idFree pool) with
  | none =>
    obtain ⟨k, hmem, hfree⟩ := exists_idFree h
    exact absurd hfree (List.find?_eq_none.1 hk k hmem)
  | some k =>
    have hlow : k < pool.length + 1 := List.mem_range.1 (List.mem_of_find?_eq_some hk)
    refine ⟨idFree_iff.1 (List.find?_some hk), ?_⟩
    rw [toNat_byteOf (by omega)]
    omega

/-! ### Pools and ports -/

variable {s t : State} {p : Port}

/-- R133: a pool over port units that the relay knows as it did. -/
theorem State.PoolLaw.of_ports (h : s.PoolLaw) (hpool : t.pool = s.pool)
    (hp : ∀ p, (t.ports.get p).session.mayRelay = (s.ports.get p).session.mayRelay ∧
      (t.ports.get p).number = (s.ports.get p).number) : t.PoolLaw where
  capacity := by rw [hpool]; exact h.capacity
  idsApart := by rw [hpool]; exact h.idsApart
  idsLow := by rw [hpool]; exact h.idsLow
  recipients m hm := by rw [(hp _).1]; exact h.recipients m (hpool ▸ hm)
  senders m hm := by rw [(hp _).1, (hp _).2]; exact h.senders m (hpool ▸ hm)
  limits q hq := by rw [(hp q).2, hpool]; exact h.limits q ((hp q).1 ▸ hq)
  lengths := by rw [hpool]; exact h.lengths

theorem State.PoolLaw.setPort (h : s.PoolLaw) {u : PortUnit}
    (hm : u.session.mayRelay = (s.ports.get p).session.mayRelay) (hn : u.number = (s.ports.get p).number) :
    (s.setPort p u).PoolLaw :=
  h.of_ports rfl fun q => by
    simp only [State.setPort_ports, Table.get_put]
    split
    · next he => exact he ▸ ⟨hm, hn⟩
    · exact ⟨rfl, rfl⟩

/-- A pool with some of the messages of another. -/
theorem State.PoolLaw.sublist (h : s.PoolLaw) {pool : List Message} (hsub : pool.Sublist s.pool) :
    (s.setPool pool).PoolLaw where
  capacity := hsub.length_le.trans h.capacity
  idsApart := h.idsApart.sublist (hsub.map _)
  idsLow m hm := h.idsLow m (hsub.subset hm)
  recipients m hm := h.recipients m (hsub.subset hm)
  senders m hm := h.senders m (hsub.subset hm)
  limits q hq := ⟨(h.limits q hq).1, (hsub.filter _).length_le.trans (h.limits q hq).2⟩
  lengths m hm := h.lengths m (hsub.subset hm)

/-! ### POST, TAKE and WITHDRAW MESSAGE -/

theorem ofSession_append (q : Port) (n : Byte) (pool : List Message) (m : Message) :
    ofSession q n (pool ++ [m]) = ofSession q n pool ++ if m.sender = q ∧ m.senderSession = n then [m] else [] := by
  simp [ofSession, List.filter_append, List.filter_cons]

/-- R135, R136: a message of a port whose session the relay knows. -/
theorem State.PoolLaw.postMessage {recipient : Port} {notify : Bool} {payload : List Byte} (h : s.PoolLaw)
    (hp : (s.ports.get p).session.mayRelay = true) : (postMessage p recipient notify payload s).1.PoolLaw := by
  unfold Machine.postMessage
  split_ifs with hfull hlimit hrec harg
  · exact h
  · exact h
  · exact h
  · exact h
  · obtain ⟨hother, hempty, hlong⟩ : recipient ≠ p ∧ payload.length ≠ 0 ∧ payload.length ≤ Config.messageMax := by
      simpa only [not_or, not_lt] using harg
    have hroom : s.pool.length < 16 := not_le.1 hfull
    obtain ⟨hfree, hlow⟩ := lowestId_free hroom
    have hto : (s.ports.get recipient).session.mayRelay = true := by rw [not_not.1 hrec]; rfl
    have hmem {m : Message} (hm : m ∈ s.pool ++ [newMessage p recipient notify payload s]) :
        m ∈ s.pool ∨ m = newMessage p recipient notify payload s := by simpa using hm
    refine State.PoolLaw.of_ports (s := s.setPool (s.pool ++ [newMessage p recipient notify payload s])) ?_ rfl
      fun _ => ⟨rfl, rfl⟩
    constructor
    case capacity =>
      simp only [State.setPool, List.length_append, List.length_singleton]
      exact hroom
    case idsApart =>
      simp only [State.setPool, List.map_append, List.map_singleton]
      refine List.nodup_append.2 ⟨h.idsApart, List.nodup_singleton _, fun a ha b hb hab => hfree ?_⟩
      have hid : b = lowestId s.pool := List.mem_singleton.1 hb
      exact hid ▸ hab ▸ ha
    case idsLow =>
      intro m hm
      rcases hmem hm with hm | rfl
      · exact h.idsLow m hm
      · exact hlow.trans_lt hroom
    case recipients =>
      intro m hm
      rcases hmem hm with hm | rfl
      · exact h.recipients m hm
      · exact ⟨hto, hother⟩
    case senders =>
      intro m hm
      rcases hmem hm with hm | rfl
      · exact h.senders m hm
      · exact .inr ⟨rfl, hp⟩
    case limits =>
      intro q hq
      obtain ⟨hnum, hlim⟩ := h.limits q hq
      refine ⟨hnum, ?_⟩
      simp only [State.setPool, ofSession_append]
      split
      · next hown =>
        obtain rfl : p = q := hown.1
        rw [List.length_append, List.length_singleton]
        exact not_le.1 hlimit
      · rw [List.append_nil]
        exact hlim
    case lengths =>
      intro m hm
      rcases hmem hm with hm | rfl
      · exact h.lengths m hm
      · exact ⟨Nat.one_le_iff_ne_zero.2 hempty, hlong⟩

theorem State.PoolLaw.takeMessage (h : s.PoolLaw) : (takeMessage p s).1.PoolLaw := by
  unfold Machine.takeMessage
  split
  · exact h
  · next m rest hpick => exact (h.sublist (pick_sublist hpick)).of_ports rfl fun _ => ⟨rfl, rfl⟩

theorem State.PoolLaw.withdrawMessage {id : Byte} (h : s.PoolLaw) : (withdrawMessage p id s).1.PoolLaw := by
  unfold Machine.withdrawMessage
  split
  · exact h
  · next m rest hpick => exact h.sublist (pick_sublist hpick)

/-- A claim whose work keeps the law wherever the relay knows the requester's session, its request being to the relay. -/
theorem State.PoolLaw.claim {r : Request} {work : State → State × Answer} (h : s.PoolLaw) (hs : s.SessionLaw)
    (ho : r.owner = .messageRelay)
    (hw : ∀ s : State, s.PoolLaw → (s.ports.get p).session.mayRelay = true → (work s).1.PoolLaw)
    (ht : claim p r work s = .next t) : t.PoolLaw := by
  rcases claim_cases p r work s with hc | ⟨aw, rest, hf, hc⟩ <;> rw [hc] at ht <;> injection ht with ht <;> subst ht
  · exact h
  · have hmay : (s.ports.get p).session.mayRelay = true := by
      obtain ⟨-, hmem⟩ := mem_of_pick hf
      have hflight := hs.flights p ⟨r, aw⟩ ((hmem _).2 (.inl rfl))
      rwa [ho] at hflight
    refine State.PoolLaw.setPort (hw (s.withInFlight p rest) ?_ ?_) ?_ ?_
    · exact h.setPort (u := { s.ports.get p with inFlight := rest }) rfl rfl
    · simpa [State.withInFlight] using hmay
    · rw [PortUnit.receive_session]
    · rw [PortUnit.receive_number]

/-! ### Sessions opened and ended -/

theorem nextNumber_ne_zero (n : Byte) : nextNumber n ≠ 0 := by
  unfold nextNumber
  split
  · decide
  · bv_omega

/-- R153: a session opened takes another number; no message of its port stands for a session still. -/
theorem State.PoolLaw.opened (h : s.PoolLaw) {u : PortUnit} (hclosed : (s.ports.get p).session = .closed)
    (hu : u.session = .opened) (hn : u.number ≠ 0) : (s.setPort p u).PoolLaw := by
  have hno : (s.ports.get p).session.mayRelay = false := by rw [hclosed]; rfl
  have hgone {m : Message} (hm : m ∈ s.pool) (hs : m.sender = p) : m.senderSession = 0 :=
    (h.senders m hm).resolve_right fun hstands => by rw [hs, hno] at hstands; exact nomatch hstands.2
  constructor
  case capacity => exact h.capacity
  case idsApart => exact h.idsApart
  case idsLow => exact h.idsLow
  case lengths => exact h.lengths
  case recipients =>
    intro m hm
    obtain ⟨hr, hne⟩ := h.recipients m hm
    refine ⟨?_, hne⟩
    simp only [State.setPort_ports, Table.get_put]
    split
    · rw [hu]; rfl
    · exact hr
  case senders =>
    intro m hm
    by_cases hs : p = m.sender
    · exact .inl (hgone hm hs.symm)
    · simp only [State.setPort_ports, Table.get_put, if_neg hs]
      exact h.senders m hm
  case limits =>
    intro q hq
    simp only [State.setPort_ports, State.setPort_pool, Table.get_put] at hq ⊢
    split
    · next he =>
      subst he
      have hnil : ofSession p u.number s.pool = [] := List.filter_eq_nil_iff.2 fun m hm hown => by
        simp only [decide_eq_true_eq] at hown
        exact hn (hown.2 ▸ hgone hm hown.1)
      exact ⟨hn, by rw [hnil]; exact Nat.zero_le _⟩
    · next he =>
      rw [if_neg he] at hq
      exact h.limits q hq

/-- R140: what a message keeps when its posting session ends. -/
theorem orphaned_cases (p : Port) (n : Byte) (m : Message) :
    ((m.sender = p ∧ m.senderSession = n) ∧ m.orphaned p n = { m with senderSession := 0 }) ∨
      (¬(m.sender = p ∧ m.senderSession = n) ∧ m.orphaned p n = m) := by
  by_cases h : m.sender = p ∧ m.senderSession = n
  · exact .inl ⟨h, if_pos h⟩
  · exact .inr ⟨h, if_neg h⟩

theorem mem_relayTearDown {m : Message} (hm : m ∈ (relayTearDown p s).pool) :
    ∃ m₀ ∈ s.pool, m₀.recipient ≠ p ∧ m = m₀.orphaned p (s.ports.get p).number := by
  obtain ⟨m₀, hm₀, rfl⟩ := List.mem_map.1 hm
  obtain ⟨hmem, hr⟩ := List.mem_filter.1 hm₀
  exact ⟨m₀, hmem, of_decide_eq_true hr, rfl⟩

/-- R140: no other session loses or gains a message by the end of one. -/
theorem ofSession_orphaned_le {q : Port} (hq : p ≠ q) (n k : Byte) (pool : List Message) :
    (ofSession q k ((pool.filter fun m => m.recipient ≠ p).map (Message.orphaned p n))).length ≤ (ofSession q k pool).length := by
  rw [ofSession, List.filter_map, List.length_map, List.filter_filter]
  refine (List.monotone_filter_right _ fun m hm => ?_).length_le
  obtain ⟨hown, -⟩ := Bool.and_eq_true_iff.1 hm
  rw [Function.comp_apply, decide_eq_true_eq] at hown
  rw [decide_eq_true_eq]
  rcases orphaned_cases p n m with ⟨hmine, he⟩ | ⟨-, he⟩ <;> rw [he] at hown
  · exact absurd (hmine.1.symm.trans hown.1) hq
  · exact hown

/-- R140: after stage 2 no message is addressed to the port, and none stands for its session. -/
theorem State.PoolLaw.tearDown (h : s.PoolLaw) {st : Stage} (hst : (Session.closing st).mayRelay = false) :
    ((relayTearDown p s).toStage p st).PoolLaw := by
  have hport {q : Port} (hq : p ≠ q) : ((relayTearDown p s).toStage p st).ports.get q = s.ports.get q :=
    Table.get_put_other _ hq _
  have hself : (((relayTearDown p s).toStage p st).ports.get p).session = .closing st := by
    simp [State.toStage]
  constructor
  case capacity => exact ((List.length_map _).trans_le (List.length_filter_le _ _)).trans h.capacity
  case idsApart =>
    have hids : ((relayTearDown p s).toStage p st).pool.map Message.id =
        (s.pool.filter fun m => m.recipient ≠ p).map Message.id := by
      refine (List.map_map ..).trans (List.map_congr_left fun m _ => ?_)
      rw [Function.comp_apply]
      rcases orphaned_cases p (s.ports.get p).number m with ⟨-, he⟩ | ⟨-, he⟩ <;> rw [he]
    rw [hids]
    exact h.idsApart.sublist (List.filter_sublist.map _)
  case idsLow =>
    intro m hm
    obtain ⟨m₀, hmem, -, rfl⟩ := mem_relayTearDown hm
    rcases orphaned_cases p (s.ports.get p).number m₀ with ⟨-, he⟩ | ⟨-, he⟩ <;> rw [he]
    all_goals exact h.idsLow m₀ hmem
  case recipients =>
    intro m hm
    obtain ⟨m₀, hmem, hr, rfl⟩ := mem_relayTearDown hm
    rcases orphaned_cases p (s.ports.get p).number m₀ with ⟨-, he⟩ | ⟨-, he⟩ <;> rw [he]
    all_goals
      rw [hport (Ne.symm hr)]
      exact h.recipients m₀ hmem
  case senders =>
    intro m hm
    obtain ⟨m₀, hmem, -, rfl⟩ := mem_relayTearDown hm
    rcases orphaned_cases p (s.ports.get p).number m₀ with ⟨-, he⟩ | ⟨hother, he⟩ <;> rw [he]
    · exact .inl rfl
    · rcases h.senders m₀ hmem with hzero | hstands
      · exact .inl hzero
      · have hne : p ≠ m₀.sender := fun hs => hother ⟨hs.symm, by rw [hstands.1, ← hs]⟩
        rw [hport hne]
        exact .inr hstands
  case limits =>
    intro q hq
    have hne : p ≠ q := fun he => by
      rw [← he, hself, hst] at hq
      exact nomatch hq
    rw [hport hne] at hq ⊢
    obtain ⟨hnum, hlim⟩ := h.limits q hq
    exact ⟨hnum, (ofSession_orphaned_le hne ..).trans hlim⟩
  case lengths =>
    intro m hm
    obtain ⟨m₀, hmem, -, rfl⟩ := mem_relayTearDown hm
    rcases orphaned_cases p (s.ports.get p).number m₀ with ⟨-, he⟩ | ⟨-, he⟩ <;> rw [he]
    all_goals exact h.lengths m₀ hmem

/-! ### Every step -/

theorem State.PoolLaw.startTeardown_setPort (h : s.PoolLaw) {u : PortUnit} (hopen : (s.ports.get p).session = .opened)
    (hn : u.number = (s.ports.get p).number) : (startTeardown p (s.setPort p u)).PoolLaw := by
  rw [Machine.startTeardown_setPort]
  exact (h.setPort (p := p) (u := { u with
    session := .closing .two, inFlight := u.inFlight.filter fun d => d.request.owner ≠ .eventQueue })
    (by rw [hopen]; rfl) hn).of_ports rfl fun _ => ⟨rfl, rfl⟩

theorem State.PoolLaw.transaction (h : s.PoolLaw) (ht : TransactionDone p s t) : t.PoolLaw := by
  cases ht with
  | nothing => exact h
  | quiet hq => exact h.setPort (by rw [hq.session]) hq.number
  | dispatched => exact h.setPort rfl rfl
  | opened r miso hclosed hfree =>
    exact (h.opened hclosed (u := { s.ports.get p with
      session := .opened, number := nextNumber (s.ports.get p).number, slot := .answerReady r, miso := miso }) rfl
      (nextNumber_ne_zero _)).of_ports rfl fun _ => ⟨rfl, rfl⟩
  | closed code tag note miso hopen hfree => exact h.startTeardown_setPort hopen rfl

/-- A stage of a teardown after stage 2, by which the relay knows the session no better. -/
theorem State.PoolLaw.toStage (h : s.PoolLaw) {st st' : Stage} (hs : (s.ports.get p).session = .closing st)
    (hst : (Session.closing st).mayRelay = false) (hst' : (Session.closing st').mayRelay = false) : (s.toStage p st').PoolLaw :=
  h.setPort (u := { s.ports.get p with session := .closing st' }) (by rw [hs, hst, hst']) rfl

theorem nextStage_mayRelay (taken : Table 4 Bool) : (Session.closing (nextStage taken)).mayRelay = false := by
  unfold nextStage
  split <;> rfl

theorem State.PoolLaw.exec (c : Instr) (s t : State) (h : s.PoolLaw) (hs : s.SessionLaw) (ht : exec c s = .next t) :
    t.PoolLaw := by
  cases hc : touchesPorts c with
  | false =>
    cases hpool : touchesPool c with
    | false =>
      exact h.of_ports (of_exec_next (keeps_pool c s hpool) ht) fun q => by
        obtain ⟨hss, hn⟩ := (of_exec_next (ports_after c s hc) ht).session q
        exact ⟨by rw [hss], hn⟩
    | true =>
      have hboth : (touchesPool c && !touchesPorts c) = true := by rw [hpool, hc]; rfl
      cases c
      case postMessage => exact h.claim hs rfl (fun _ h hp => h.postMessage hp) ht
      case takeMessage => exact h.claim hs rfl (fun _ h _ => h.takeMessage) ht
      case withdrawMessage => exact h.claim hs rfl (fun _ h _ => h.withdrawMessage) ht
      all_goals exact nomatch (show false = true from hboth)
  | true =>
    cases c
    case put | get | peek | voidTransaction | identify | openSession | closeSession =>
      exact of_exec_next ((transaction_done rfl s).imp fun _ hd => ⟨hd.1, h.transaction hd.2⟩) ht
    case teardownStage2 =>
      injection ht with ht
      subst ht
      split
      · exact h.tearDown rfl
      · exact h
    case teardownStage3 p =>
      injection ht with ht
      subst ht
      split
      · next hready =>
        have hkept : (captureTearDown p s).PoolLaw := h.of_ports rfl fun _ => ⟨rfl, rfl⟩
        exact hkept.toStage (State.stageReady_iff.1 hready).1 rfl rfl
      · exact h
    case teardownStage4 p ax =>
      simp only [Machine.exec, execTeardownStage4] at ht
      split at ht
      · next taken hst =>
        split at ht <;> injection ht with ht <;> subst ht
        · have hkept : (s.axisStep ax ((s.axes.get ax).tearDown ax s.timebase p)).PoolLaw :=
            h.of_ports rfl fun _ => ⟨rfl, rfl⟩
          exact hkept.toStage (PortUnit.stage_eq_some.1 hst) rfl (nextStage_mayRelay _)
        · exact h
      · injection ht with ht
        exact ht ▸ h
    case teardownStage5 p =>
      injection ht with ht
      subst ht
      split
      · next hready =>
        have hkept : (zoneTearDown p s).PoolLaw :=
          h.of_ports (zoneTearDown_pool p s) fun _ => by rw [zoneTearDown_ports]; exact ⟨rfl, rfl⟩
        refine hkept.toStage (st := .five) ?_ rfl rfl
        rw [zoneTearDown_ports]
        exact (State.stageReady_iff.1 hready).1
      · exact h
    case teardownStage6 p =>
      injection ht with ht
      subst ht
      split
      · next hst =>
        have hended : (s.ports.get p).ended.session = .closed ∧ (s.ports.get p).ended.number = (s.ports.get p).number := by
          unfold PortUnit.ended
          dsimp only
          split <;> simp
        refine h.setPort ?_ hended.2
        rw [hended.1, PortUnit.stage_eq_some.1 hst]
        rfl
      · exact h
    case prstnAssert p =>
      simp only [Machine.exec, execPrstnAssert] at ht
      split at ht <;> injection ht with ht <;> subst ht
      · exact h
      · split
        · next hopen => exact h.startTeardown_setPort hopen rfl
        · exact h.setPort rfl rfl
    case prstnRelease p =>
      injection ht with ht
      subst ht
      exact h.setPort rfl rfl
    case rstnAssert | supplyBelowRange =>
      injection ht with ht
      subst ht
      refine ⟨Nat.zero_le _, List.nodup_nil, nofun, nofun, nofun, fun q hq => ?_, nofun⟩
      simp [State.resetBlocks, PortUnit.reset, Session.mayRelay] at hq
    all_goals exact nomatch (show false = true from hc)

end Sys2Proof.Machine

namespace Sys2Proof.LawsKept

open Machine

/-- Settles O60: with the law of the session, by which a request in flight to the relay is one of a session the relay knows; a
message stands for its sender's session until stage 2 of that session's teardown. -/
theorem poolLawKept : Obligations.PoolLawKept := fun s t hs hp ht =>
  (step_keeps (P := fun s => s.SessionLaw ∧ s.PoolLaw)
    (fun _ _ h => ⟨h.1.of_same rfl fun _ _ => id, h.2.of_ports rfl fun _ => ⟨rfl, rfl⟩⟩)
    (fun s h => ⟨h.1.microsecond, by
      rcases microsecond_cases s with ⟨_, he⟩ | ⟨_, _, he⟩ | ⟨_, _, he⟩ <;> rw [he]
      all_goals exact h.2.of_ports rfl fun _ => ⟨rfl, rfl⟩⟩)
    (fun c s t h ht => ⟨State.SessionLaw.exec c s t h.1 ht, State.PoolLaw.exec c s t h.2 h.1 ht⟩)
    s t ⟨hs, hp⟩ ht).2

end Sys2Proof.LawsKept
end

section
/-!
PROOFS. Steps, and what no command changes: the commands that wait (00), and the state where there is nothing to take (log 1).
-/

namespace Sys2Proof.Machine

/-! ### The commands that wait -/

theorem apart_pending : Apart State.pending := ⟨fun _ _ _ => rfl, fun _ _ _ => rfl⟩

theorem TransactionDone.pending {p : Port} {s t : State} (h : TransactionDone p s t) : t.pending = s.pending := by
  cases h <;> simp

theorem axisRequest_pending {c : Instr} {pa : Port × Axis} (hc : axisRequest c = some pa) (s : State) :
    ∃ t, exec c s = .next t ∧ t.pending = s.pending := by
  cases c
  case configureAxis | start | stop | resume | setOffset | subscribeAxis | unsubscribeAxis | align | cancelAlign =>
    refine claim_keeps apart_pending fun s => ?_
    simp only [configureAxis, startAxis, stopAxis, resumeAxis, setOffset, subscribeAxis, unsubscribeAxis, alignAxis,
      cancelAlign]
    repeat' split
    all_goals rfl
  all_goals exact nomatch hc

theorem zoneRequest_pending {c : Instr} (hc : zoneRequest c = true) (s : State) :
    ∃ t, exec c s = .next t ∧ t.pending = s.pending := by
  cases c
  case defineZone | modifyZone | deleteZone | readZone | listZones | subscribeZone | unsubscribeZone =>
    refine claim_keeps apart_pending fun s => ?_
    simp only [defineZone, modifyZone, deleteZone, readZone, listZones, subscribeZone, unsubscribeZone]
    repeat' split
    all_goals rfl
  all_goals exact nomatch (show false = true from hc)

theorem lineRequest_pending {c : Instr} (hc : lineRequest c = true) (s : State) :
    ∃ t, exec c s = .next t ∧ t.pending = s.pending := by
  cases c
  case claimOutput | renewLease | releaseOutput | cancelWait | mapOutput | forceOutput | configureOutput | readOutputs =>
    refine claim_keeps apart_pending fun s => ?_
    simp only [claimOutput, renewLease, releaseOutput, cancelWait, mapOutput, forceOutput, configureOutput, readOutputs]
    repeat' split
    all_goals rfl
  all_goals exact nomatch (show false = true from hc)

theorem takeExpiry_pending (o : Line) (s : State) : (takeExpiry o s).pending = s.pending := by
  unfold takeExpiry
  dsimp only
  split
  · split <;> rfl
  · rfl

@[simp] theorem State.begin_pending (s : State) : s.begin.pending = s.pending := by
  unfold State.begin
  split <;> rfl

/-- 00: every command completes, and leaves the commands that wait as they are. -/
theorem exec_pending (c : Instr) (s : State) : ∃ t, exec c s = .next t ∧ t.pending = s.pending := by
  cases c
  case put | get | peek | voidTransaction | identify | openSession | closeSession =>
    exact (transaction_done rfl s).imp fun _ hd => ⟨hd.1, hd.2.pending⟩
  case configureAxis | start | stop | resume | setOffset | subscribeAxis | unsubscribeAxis | align | cancelAlign =>
    exact axisRequest_pending rfl s
  case defineZone | modifyZone | deleteZone | readZone | listZones | subscribeZone | unsubscribeZone =>
    exact zoneRequest_pending rfl s
  case claimOutput | renewLease | releaseOutput | cancelWait | mapOutput | forceOutput | configureOutput | readOutputs =>
    exact lineRequest_pending rfl s
  case readAxes | fetchEvents | ackEvents | setAttention | configureTrigger | attachCursor | detachCursor | readCaptures
      | postMessage | takeMessage | withdrawMessage =>
    refine claim_keeps apart_pending fun s => ?_
    simp only [readAxes, fetchEvents, ackEvents, setAttention, configureTrigger, attachCursor, detachCursor, readCaptures,
      postMessage, takeMessage, withdrawMessage]
    repeat' split
    all_goals rfl
  case teardownStage2 | teardownStage3 | teardownStage5 | teardownStage6 =>
    refine ⟨_, rfl, ?_⟩
    split
    · simp
    · rfl
  case teardownStage4 =>
    simp only [exec, execTeardownStage4]
    split
    · split
      · exact ⟨_, rfl, rfl⟩
      · exact ⟨_, rfl, rfl⟩
    · exact ⟨_, rfl, rfl⟩
  case prstnAssert =>
    simp only [exec, execPrstnAssert]
    split
    · exact ⟨_, rfl, rfl⟩
    · refine ⟨_, rfl, ?_⟩
      split
      · simp
      · rfl
  case rstnRelease =>
    simp only [exec, execRstnRelease]
    split
    · exact ⟨_, rfl, State.begin_pending _⟩
    · exact ⟨_, rfl, rfl⟩
  case supplyReturnToRange =>
    simp only [exec, execSupplyReturnToRange]
    split
    · exact ⟨_, rfl, rfl⟩
    · exact ⟨_, rfl, State.begin_pending _⟩
  case sample | rebaseNotice | freezeNotice | thawNotice | lineFaultRise | startupPeriodEnd | latchSnapshotWrite
      | zoneCaptureClaim | triggerEdge | eventAppend =>
    simp only [exec, execSample, execRebaseNotice, execFreezeNotice, execThawNotice, execLineFaultRise,
      execStartupPeriodEnd, execLatchSnapshotWrite, execZoneCaptureClaim, execTriggerEdge, execEventAppend]
    split <;> exact ⟨_, rfl, rfl⟩
  case leaseExpiry =>
    simp only [exec, execLeaseExpiry]
    split
    · exact ⟨_, rfl, takeExpiry_pending ..⟩
    · exact ⟨_, rfl, rfl⟩
  case leaseTick =>
    refine ⟨_, rfl, ?_⟩
    split <;> rfl
  case rstnAssert | supplyBelowRange | prstnRelease | encoderStep | skippedState | lineFaultFall | indexPulse
      | oholdChange => exact ⟨_, rfl, rfl⟩

/-! ### Nothing to take -/

/-- R150: the owner has no such request of the port to take. -/
theorem claim_of_not_flying {p : Port} {r : Request} {work : State → State × Answer} {s : State}
    (h : ∀ aw rest, ¬ s.Flying p r aw rest) : claim p r work s = .next s :=
  (claim_cases p r work s).resolve_right fun ⟨aw, rest, hf, _⟩ => h aw rest hf

theorem command_of_not_flying {p : Port} {r : Request} {s : State} (h : ∀ aw rest, ¬ s.Flying p r aw rest) :
    exec (r.command p) s = .next s := by
  cases r
  all_goals exact claim_of_not_flying h

variable {s : State} {ax : Axis}

/-! A command of the zone controller takes from the head of a path only a message of its kind (R22, R56). -/

theorem exec_sample_of_not (h : ∀ x a, (s.axes.get ax).outbox.head? ≠ some (.sample x a)) :
    exec (.sample ax) s = .next s := by
  simp only [exec, execSample]
  split
  · next x a rest hb => exact absurd (by rw [hb]; rfl) (h x a)
  · rfl

theorem exec_rebaseNotice_of_not (h : ∀ x c, (s.axes.get ax).outbox.head? ≠ some (.rebase x c)) :
    exec (.rebaseNotice ax) s = .next s := by
  simp only [exec, execRebaseNotice]
  split
  · next x c rest hb => exact absurd (by rw [hb]; rfl) (h x c)
  · rfl

theorem exec_freezeNotice_of_not (h : ∀ x c, (s.axes.get ax).outbox.head? ≠ some (.freeze x c)) :
    exec (.freezeNotice ax) s = .next s := by
  simp only [exec, execFreezeNotice]
  split
  · next x c rest hb => exact absurd (by rw [hb]; rfl) (h x c)
  · rfl

theorem exec_thawNotice_of_not (h : ∀ x c, (s.axes.get ax).outbox.head? ≠ some (.thaw x c)) :
    exec (.thawNotice ax) s = .next s := by
  simp only [exec, execThawNotice]
  split
  · next x c rest hb => exact absurd (by rw [hb]; rfl) (h x c)
  · rfl

theorem exec_eventAppend_of_none {p : Port} {src : Producer} (h : ∀ a ∈ (s.queues.get p).arriving, a.1 ≠ src) :
    exec (.eventAppend p src) s = .next s := by
  simp only [exec, execEventAppend]
  split
  · rfl
  · next a rest hpick =>
    obtain ⟨hsrc, hmem⟩ := mem_of_pick hpick
    exact absurd (of_decide_eq_true hsrc) (h a ((hmem a).2 (.inl rfl)))

/-- A stage waits for its turn, and for the requests to its owner. -/
theorem stageReady_of_not {p : Port} {st : Stage} {o : Owner}
    (h : (s.ports.get p).session ≠ .closing st ∨ inFlightTo o (s.ports.get p).inFlight = true) :
    s.stageReady p st o = false :=
  Bool.eq_false_iff.2 fun hready => by
    obtain ⟨hss, hfly⟩ := State.stageReady_iff.1 hready
    exact h.elim (fun hne => hne hss) fun hf => absurd (hfly.symm.trans hf) Bool.false_ne_true

theorem exec_teardownStage4_of_not {p : Port}
    (h : (∀ taken, (s.ports.get p).session = .closing (.four taken) → taken.get ax = true) ∨
      inFlightTo (.axisUnit ax) (s.ports.get p).inFlight = true) : exec (.teardownStage4 p ax) s = .next s := by
  simp only [exec, execTeardownStage4]
  split
  · next taken hst =>
    refine if_neg fun hready => ?_
    simp only [Bool.and_eq_true, Bool.not_eq_true'] at hready
    rcases h with htaken | hfly
    · exact absurd (htaken taken (PortUnit.stage_eq_some.1 hst)) (by simp [hready.1])
    · exact absurd hfly (by simp [hready.2])
  · rfl

/-- Putting a unit in the place where it stands. -/
theorem State.setPort_same {p : Port} {u : PortUnit} (h : u = s.ports.get p) : s.setPort p u = s := by
  subst h
  rw [State.setPort, Table.put_get]

theorem State.setAxis_same {u : AxisUnit} (h : u = s.axes.get ax) : s.setAxis ax u = s := by
  subst h
  rw [State.setAxis, Table.put_get]

/-- R75, R76: under the law of the output table every pin stands already where the level of OHOLD puts it. -/
theorem exec_oholdChange_same (h : s.OutputLaw) : exec (.oholdChange s.ohold) s = .next s := by
  have hdrivers : (s.drivers.mapIdx fun _ d => d.drive s.ohold) = s.drivers :=
    Table.ext_get fun o => by
      rw [Table.get_mapIdx, h.pins o]
      rfl
  exact congrArg Host.Outcome.next (by rw [hdrivers])

end Sys2Proof.Machine

namespace Sys2Proof.Steps

open Machine

/-- Settles O1: by the definition of a step. -/
theorem stepRunsFrontCommand : Obligations.StepRunsFrontCommand := by
  intro s c rest h
  simp only [step, h]

/-- Settles O2: under reset nothing passes; else the microsecond is the last before a tick instant or it is not. -/
theorem idleStepIsOneMicrosecond : Obligations.IdleStepIsOneMicrosecond := by
  intro s h hlaw
  have hlast : s.sinceTick < 1000 := hlaw.tickAhead
  simp only [step, h]
  refine congrArg _ ?_
  rcases microsecond_cases s with ⟨hr, hs⟩ | ⟨hr, hge, hs⟩ | ⟨hr, hlt, hs⟩ <;> rw [hs, hr]
  · rfl
  · have heq : s.sinceTick = 999 := by omega
    simp [State.tick, State.tickLeases, State.passTime, heq, h, Config.tickSpacing, Config.startUpEnd]
  · have hne : s.sinceTick ≠ 999 := by omega
    simp only [State.passTime, hne, h, Bool.false_eq_true, if_false]
    rfl

/-- Settles O3: command by command; a claim, a transaction and a stage each leave the queue of commands alone. -/
theorem everyCommandCompletes : Obligations.EveryCommandCompletes := fun s c => exec_pending c s

/-- Settles O4: each test of a command that fails leaves the state as it is. -/
theorem nothingToTakeChangesNothing : Obligations.NothingToTakeChangesNothing := by
  intro s
  refine ⟨fun p r h => command_of_not_flying h, fun ax h => exec_sample_of_not h, fun ax h => exec_rebaseNotice_of_not h,
    fun ax h => exec_freezeNotice_of_not h, fun ax h => exec_thawNotice_of_not h, fun p src h => exec_eventAppend_of_none h,
    fun o h => ?_, fun i h => ?_, fun h => ?_, fun p h => ?_, fun p h => ?_, fun p ax h => exec_teardownStage4_of_not h,
    fun p h => ?_, fun p h => ?_, fun p h => ?_, fun p h => ?_, fun ax h => ?_, fun ax h => ?_, fun i => ?_,
    exec_oholdChange_same, fun p => rfl, fun p b l h => ?_, fun h => ?_, fun h => ?_, fun h => ?_, fun h => ?_⟩
  · simp only [exec, execLeaseExpiry, h, Bool.false_eq_true, if_false]
  · simp only [exec, execLatchSnapshotWrite, h]
  · simp only [exec, execZoneCaptureClaim, h]
  · simp only [exec, execTeardownStage2, stageReady_of_not h, Bool.false_eq_true, if_false]
  · simp only [exec, execTeardownStage3, stageReady_of_not h, Bool.false_eq_true, if_false]
  · simp only [exec, execTeardownStage5, stageReady_of_not h, Bool.false_eq_true, if_false]
  · simp only [exec, execTeardownStage6, PortUnit.stage_eq_some, h, if_false]
  · simp only [exec, execPrstnAssert, h, if_true]
  · exact congrArg Host.Outcome.next (State.setPort_same (by rw [← h]))
  · simp only [exec, execLineFaultRise, h, if_true]
  · exact congrArg Host.Outcome.next (State.setAxis_same (by rw [← h]))
  · simp only [exec, execTriggerEdge]
    refine if_pos ?_
    cases (s.triggers.get i).level <;> rfl
  · simp only [exec, execVoidTransaction]
    refine if_pos ?_
    rcases h with rfl | rfl | rfl <;> rfl
  · simp only [exec, execRstnRelease, h, Bool.false_eq_true, if_false]
  · simp only [exec, execSupplyReturnToRange, h, if_true]
  · simp only [exec, execStartupPeriodEnd, h, Bool.false_and, Bool.false_eq_true, if_false]
  · have hreset : s.inReset = true := by
      rcases h with h | h <;> simp [State.inReset, h]
    simp only [exec, execStartupPeriodEnd, execLeaseTick, hreset, Bool.not_true, Bool.and_false, Bool.false_eq_true, if_false,
      if_true, and_self]

end Sys2Proof.Steps
end

section
/-!
PROOFS. Part reset and start-up (R159, R169, R170), and the laws at reset.
-/

namespace Sys2Proof.Machine

/-- The tables after part reset are those of the machine's reset state. -/
theorem mapIdx_all {α β : Type} (n : Nat) (f : Fin n → α → β) (x : α) (y : β) (h : ∀ i, f i x = y) :
    (Table.all n x).mapIdx f = Table.all n y :=
  Table.ext_get fun i => by rw [Table.get_mapIdx, Table.get_all, Table.get_all, h]

theorem State.queueLaw_reset : State.reset.QueueLaw := by
  intro p
  simp only [State.reset, Table.get_all]
  exact ⟨EventQueue.law_reset, iff_of_false nofun nofun⟩

theorem State.slotLaw_reset : State.reset.SlotLaw := by
  intro p
  simp only [State.reset, Table.get_all]
  exact PortUnit.slotLaw_reset false

theorem State.poolLaw_reset : State.reset.PoolLaw := by
  refine ⟨Nat.zero_le _, List.nodup_nil, nofun, nofun, nofun, fun q hq => ?_, nofun⟩
  simp [State.reset, PortUnit.reset, Session.mayRelay] at hq

/-- The ports, axes and triggers of the reset state are those that part reset makes of it. -/
theorem State.reset_resetBlocks :
    State.reset.ports = State.reset.resetBlocks.ports ∧ State.reset.axes = State.reset.resetBlocks.axes ∧
      State.reset.triggers = State.reset.resetBlocks.triggers := by
  refine ⟨?_, ?_, ?_⟩
  · exact (mapIdx_all 4 (fun _ (u : PortUnit) => PortUnit.reset u.prstn) (PortUnit.reset false) _ fun _ => rfl).symm
  · exact (mapIdx_all 4 (fun _ (u : AxisUnit) => AxisUnit.reset u.lineFault u.phase) (AxisUnit.reset false .lowLow) _
      fun _ => rfl).symm
  · exact (mapIdx_all 4 (fun _ (i : Trigger) => Trigger.reset i.level) (Trigger.reset false) _ fun _ => rfl).symm

end Sys2Proof.Machine

namespace Sys2Proof.PartResets

open Machine

/-- Settles O22: part reset writes every block and keeps the pins' levels. -/
theorem partReset : Obligations.PartReset := fun _ => ⟨rfl, rfl⟩

/-- Settles O23: the start-up period begins unless the other condition still holds the part in reset. -/
theorem startUp : Obligations.StartUp := by
  intro s
  refine ⟨fun hr => ?_, fun hs => ?_, fun hst hr hs => ?_⟩
  · simp only [exec, execRstnRelease, hr, if_true, State.begin, State.inReset, Bool.false_or]
    cases s.supplyOk <;> rfl
  · simp only [exec, execSupplyReturnToRange, hs, Bool.false_eq_true, if_false, State.begin, State.inReset]
    cases s.rstn <;> rfl
  · have hreset : s.inReset = false := by rw [State.inReset, hr, hs]; rfl
    simp only [exec, execStartupPeriodEnd, hst, hreset, Bool.not_false, Bool.and_self, if_true]

/-- Settles O51: after part reset every table is empty and every unit at rest. -/
theorem lawsHoldAtReset : Obligations.LawsHoldAtReset := by
  obtain ⟨hports, haxes, htriggers⟩ := State.reset_resetBlocks
  exact ⟨⟨fun h => absurd h (by decide), fun _ => by decide, by decide⟩, State.slotLaw_reset,
    resetBlocks_sessionLaw hports haxes rfl rfl rfl htriggers, State.queueLaw_reset,
    State.reset.axisLaw_resetBlocks.of_same haxes rfl, State.reset.zoneLaw_resetBlocks.of_same rfl rfl,
    State.reset.outputLaw_resetBlocks.of_same rfl rfl rfl fun _ => rfl, CaptureUnit.law_reset, State.poolLaw_reset⟩

end Sys2Proof.PartResets
end

section
/-!
PROOFS. The link (R143–R149, R160–R163): ignored and discarded frames, the frame tests, the judgement of a request, its dispatch,
GET, PEEK and void transactions.
-/

namespace Sys2Proof.Machine

variable {s : State} {p : Port}

/-! ### Frames in general -/

theorem linkIgnored_of_held (h : s.rstn = true ∨ s.supplyOk = false ∨ (s.ports.get p).prstn = true) :
    s.linkIgnored p = true := by
  rcases h with h | h | h <;> simp [State.linkIgnored, State.inReset, h]

/-- R146: in the start-up period and in WORKING a frame is flagged and otherwise lost. -/
theorem putTransaction_discards (hl : s.linkIgnored p = false)
    (h : s.starting = true ∨ ∃ code tag note, (s.ports.get p).slot = .working code tag note) (n : Nat)
    (f : Bool → State → State) :
    putTransaction p n f s =
      s.setPort p { s.ports.get p with frameDiscarded := true, miso := List.replicate (n + 1) 0 } := by
  have hflag : (s.clockOut p (zeros (n + 1))).flagDiscard p =
      s.setPort p { s.ports.get p with frameDiscarded := true, miso := List.replicate (n + 1) 0 } := by
    rw [State.flagDiscard, State.clockOut_get, State.clockOut, State.setPort_setPort]
    rfl
  unfold putTransaction
  rw [hl]
  rcases h with hst | ⟨code, tag, note, hslot⟩
  · simp only [Bool.false_eq_true, if_false, hst, if_true, hflag]
  · simp only [Bool.false_eq_true, if_false, hslot, hflag, ite_self]

/-- R146, R148: a response formed as soon as the frame has ended. -/
theorem clockOut_respond (n : Nat) (code tag : Byte) (note : Bool) (a : Answer) :
    (s.clockOut p (zeros (n + 1))).respond p code tag note a = s.answersAtOnce p n ⟨code, tag, a.result, note, a.payload⟩ := by
  rw [State.respond, State.clockOut_get, State.clockOut, State.setPort_setPort]
  rfl

theorem exec_put_takes {note : Bool} (h : s.Takes p note) (f : List Byte) :
    exec (.put p f) s = .next (takeFrame p f note (s.clockOut p (zeros (f.length + 1)))) :=
  congrArg _ (putTransaction_takes h _ _)

/-- R147: a frame written as R162 says passes the frame tests. -/
theorem takeFrame_requestFrame (code number tag : Byte) {payload : List Byte} (hlen : payload.length ≤ 59) :
    takeFrame p (requestFrame code number tag payload) = judgeFrame p code number tag payload := by
  funext note s
  rw [takeFrame, frameVerdict_requestFrame _ _ _ _ hlen]
  simp only [requestFrame_code, requestFrame_session, requestFrame_tag, requestFrame_payload]

/-- R147, R148: a frame of a request, taken, is judged. -/
theorem exec_put_requestFrame {note : Bool} (h : s.Takes p note) (code number tag : Byte) {payload : List Byte}
    (hlen : payload.length ≤ 59) :
    exec (.put p (requestFrame code number tag payload)) s =
      .next (judgeFrame p code number tag payload note (s.clockOut p (zeros (payload.length + 5 + 1)))) := by
  rw [exec_put_takes h, takeFrame_requestFrame code number tag hlen, length_requestFrame]

/-! ### The session's judgement (R152–R154) -/

theorem sessionVerdict_open_closed {u : PortUnit} (h : u.session = .closed) (n : Byte) : sessionVerdict u 0x02 n = none := by
  simp [sessionVerdict, h]

theorem sessionVerdict_open_opened {u : PortUnit} (h : u.session = .opened) (n : Byte) :
    sessionVerdict u 0x02 n = some .sessionOpen := by simp [sessionVerdict, h]

theorem sessionVerdict_open_closing {u : PortUnit} (h : ∃ st, u.session = .closing st) (n : Byte) :
    sessionVerdict u 0x02 n = some .sessionClosing := by
  obtain ⟨st, h⟩ := h
  simp [sessionVerdict, h]

theorem sessionVerdict_close_closing {u : PortUnit} (h : ∃ st, u.session = .closing st) (n : Byte) :
    sessionVerdict u 0x03 n = some .sessionClosing := by
  obtain ⟨st, h⟩ := h
  simp [sessionVerdict, h]

theorem sessionVerdict_close_closed {u : PortUnit} (h : u.session = .closed) (n : Byte) :
    sessionVerdict u 0x03 n = some .noSession := by simp [sessionVerdict, h]

theorem sessionVerdict_not_opened {u : PortUnit} {code : Byte} (h1 : code ≠ 0x01) (h2 : code ≠ 0x02) (h3 : code ≠ 0x03)
    (h : u.session ≠ .opened) (n : Byte) : sessionVerdict u code n = some .noSession := by
  cases hs : u.session with
  | opened => exact absurd hs h
  | closed => simp only [sessionVerdict, if_neg h1, if_neg h2, hs]
  | closing => simp only [sessionVerdict, if_neg h1, if_neg h2, if_neg h3, hs]

theorem sessionVerdict_stale {u : PortUnit} {code n : Byte} (h1 : code ≠ 0x01) (h2 : code ≠ 0x02) (h : u.session = .opened)
    (hn : n ≠ u.number) : sessionVerdict u code n = some .staleSession := by
  simp only [sessionVerdict, if_neg h1, if_neg h2, h]
  exact if_pos hn

theorem sessionVerdict_admits {u : PortUnit} {code n : Byte}
    (h : code = 0x01 ∨ (code = 0x02 ∧ u.session = .closed) ∨
      (code ≠ 0x01 ∧ code ≠ 0x02 ∧ u.session = .opened ∧ n = u.number)) : sessionVerdict u code n = none := by
  rcases h with rfl | ⟨rfl, hs⟩ | ⟨h1, h2, hs, hn⟩
  · rfl
  · exact sessionVerdict_open_closed hs n
  · exact (sessionVerdict_other h1 h2).2 ⟨hs, hn⟩

/-- The session and the number of a port do not depend on what it clocks out. -/
theorem sessionVerdict_clockOut (l : List Byte) (code n : Byte) :
    sessionVerdict ((s.clockOut p l).ports.get p) code n = sessionVerdict (s.ports.get p) code n := by
  rw [State.clockOut_get]
  rfl

/-- R148: a frame of a known request that the session refuses. -/
theorem judge_session_clockOut {code number : Byte} {row : RequestRow} {r : ResultCode} (hrow : requestRow code = some row)
    (hs : sessionVerdict (s.ports.get p) code number = some r) (n : Nat) (tag : Byte) (payload : List Byte) (note : Bool) :
    judgeFrame p code number tag payload note (s.clockOut p (zeros (n + 1))) =
      s.answersAtOnce p n ⟨code, tag, r, note, []⟩ := by
  rw [judge_session hrow ((sessionVerdict_clockOut _ _ _).trans hs)]
  exact clockOut_respond ..

/-! ### GET and PEEK -/

/-- R163: the most significant bit decides a shift of the check register. -/
theorem crcShift_eq : crcShift = fun r => if r.getLsbD 7 then (r <<< 1) ^^^ 0x2F else r <<< 1 := by
  funext r
  rw [crcShift, BitVec.msb_eq_getLsbD_last]

/-- R162, R163: a response frame with its check byte written out. -/
theorem Response.bytes_eq (r : Response) :
    r.bytes =
      let shift (r : Byte) : Byte := if r.getLsbD 7 then (r <<< 1) ^^^ 0x2F else r <<< 1
      let body : List Byte :=
        [BitVec.ofNat 8 (r.payload.length + 6), r.code, r.tag, r.result.code, if r.note then 1 else 0] ++ r.payload
      body ++ [body.foldl
        (fun r b => shift (shift (shift (shift (shift (shift (shift (shift (r ^^^ b))))))))) 0xFF] := by
  rw [Response.bytes, crc8]
  simp only [funext fun r => funext (crcByte.eq_1 r), crcShift_eq]
  rfl

theorem readTransaction_alive (h : s.linkIgnored p = false) (n : Nat) (held : List Byte) (slot : ReqSlot) :
    readTransaction p n held slot s = s.setPort p
      { s.ports.get p with
        slot := slot
        frameDiscarded := if n = 0 then (s.ports.get p).frameDiscarded else false
        miso := 0 :: (s.statusBits p :: held ++ List.replicate n 0).take n } := by
  rw [← statusByte_eq]
  simp only [readTransaction, h, Bool.false_eq_true, if_false]
  rfl

theorem readTransaction_miso (n : Nat) (held : List Byte) (slot : ReqSlot) :
    ((readTransaction p n held slot s).ports.get p).miso.length = n + 1 ∧
      ((readTransaction p n held slot s).ports.get p).miso.head? = some 0 := by
  cases h : s.linkIgnored p with
  | true => simp [readTransaction, h, zeros, List.replicate_succ]
  | false =>
    simp [readTransaction_alive h, State.setPort]
    omega

theorem exec_void {b : Byte} (hb : isTypeCode b = false) (l : List Byte) :
    exec (.voidTransaction p (b :: l)) s = .next (
      if s.linkIgnored p then s.clockOut p (zeros (l.length + 1))
      else s.setPort p { s.ports.get p with frameDiscarded := true, miso := List.replicate (l.length + 1) 0 }) := by
  simp only [exec, execVoidTransaction, hb, Bool.false_eq_true, if_false]
  rw [State.flagDiscard, State.clockOut_get, State.clockOut, State.setPort_setPort]
  rfl

/-- R160: every transaction clocks out as many bytes as it clocks in, the first of them 0x00. -/
theorem linkCommand_miso (b : Byte) (l : List Byte) :
    ∃ t, exec (linkCommand p (b :: l)) s = .next t ∧
      (t.ports.get p).miso.length = l.length + 1 ∧ (t.ports.get p).miso.head? = some 0 := by
  rcases linkCommand_cases p b l with h | h | h | ⟨hb, h⟩ <;> rw [h]
  · refine ⟨_, rfl, ?_⟩
    rw [put_miso p l.length _ s fun b t => take_miso p l b t]
    exact ⟨List.length_replicate .., rfl⟩
  · exact ⟨_, rfl, readTransaction_miso ..⟩
  · exact ⟨_, rfl, readTransaction_miso ..⟩
  · refine ⟨_, exec_void hb l, ?_⟩
    split <;> simp [zeros, State.setPort, List.replicate_succ]

end Sys2Proof.Machine

namespace Sys2Proof.Link

open Machine

/-- Settles O5: each transaction tests first whether the link is ignored. -/
theorem ignoredLinkChangesNothing : Obligations.IgnoredLinkChangesNothing := by
  intro s p h
  have hl := linkIgnored_of_held h
  have hput (n : Nat) (f : Bool → State → State) := congrArg (Host.Outcome.next : State → Result) (putTransaction_ignored hl n f)
  have hread (n : Nat) (held : List Byte) (slot : ReqSlot) :
      readTransaction p n held slot s = s.clockOut p (zeros (n + 1)) := by
    simp only [readTransaction, hl, if_true]
  refine ⟨fun f => hput _ _, fun n => congrArg _ (hread ..), fun n => congrArg _ (hread ..), fun b l hb => ?_,
    fun _ _ => hput _ _, fun _ _ => hput _ _, fun _ _ => hput _ _⟩
  rw [exec_void hb, if_pos hl]
  rfl

/-- Settles O6: a PUT that the port cannot take sets the flag alone. -/
theorem putDiscarded : Obligations.PutDiscarded := by
  intro s p hl h
  have hput (n : Nat) (f : Bool → State → State) := congrArg (Host.Outcome.next : State → Result) (putTransaction_discards hl h n f)
  exact ⟨fun f => hput _ _, fun _ _ => hput _ _, fun _ _ => hput _ _, fun _ _ => hput _ _⟩

/-- Settles O7: the two frame tests, in their order. -/
theorem putFrameTests : Obligations.PutFrameTests := by
  intro s p note f h
  refine ⟨fun hlen => ?_, fun hlen hcheck => ?_⟩
  · have hv : frameVerdict f = some .frameError := if_pos hlen
    rw [exec_put_takes h, takeFrame, hv]
    exact congrArg _ (clockOut_respond ..)
  · have hv : frameVerdict f = some .checkError := (if_neg hlen).trans (if_pos hcheck)
    rw [exec_put_takes h, takeFrame, hv]
    exact congrArg _ (clockOut_respond ..)

/-- Settles O8: code, session and payload are judged in this order; what parses is what was written. -/
theorem putRefused : Obligations.PutRefused := by
  intro s p note code number tag payload h hlen
  have hrun := exec_put_requestFrame h code number tag hlen
  refine ⟨fun hrow => ?_, fun row hrow => ?_⟩
  · rw [hrun, judge_unknown hrow]
    exact congrArg _ (clockOut_respond ..)
  · have hrefused {r : ResultCode} (hs : sessionVerdict (s.ports.get p) code number = some r) :
        exec (.put p (requestFrame code number tag payload)) s =
          .next (s.answersAtOnce p (payload.length + 5) ⟨code, tag, r, note, []⟩) :=
      hrun.trans (congrArg _ (judge_session_clockOut hrow hs _ tag payload note))
    refine ⟨?_, ?_, ?_, ?_, fun h1 h2 h3 hs => hrefused (sessionVerdict_not_opened h1 h2 h3 hs number),
      fun h1 h2 hs hn => hrefused (sessionVerdict_stale h1 h2 hs hn), fun off hp hadmit => ?_, fun asked hp => ?_⟩
    · rintro rfl hs
      exact hrefused (sessionVerdict_open_opened hs number)
    · rintro rfl hs
      exact hrefused (sessionVerdict_open_closing hs number)
    · rintro rfl hs
      exact hrefused (sessionVerdict_close_closing hs number)
    · rintro rfl hs
      exact hrefused (sessionVerdict_close_closed hs number)
    · rw [hrun, judge_payload hrow ((sessionVerdict_clockOut _ _ _).trans (sessionVerdict_admits hadmit)) hp]
      exact congrArg _ (clockOut_respond ..)
    · have hreads := readsAs_of_parse hlen hrow hp
      cases asked <;> exact hreads

/-- Settles O9: a well-formed request parses to itself and is dispatched; the frames of IDENTIFY, OPEN and CLOSE are judged as
those commands judge them. -/
theorem putDispatched : Obligations.PutDispatched := by
  intro s p tag
  have hown (code number : Byte) :
      exec (.put p (requestFrame code number tag [])) s = .next (putTransaction p 5 (judgeFrame p code number tag []) s) :=
    congrArg (fun f => (.next (putTransaction p 5 f s) : Result)) (takeFrame_requestFrame code number tag (Nat.zero_le _))
  refine ⟨fun note r h hr hopen => ?_, hown 0x01, hown 0x02, hown 0x03, fun _ _ _ => rfl⟩
  obtain ⟨row, hrow, hparse⟩ := parse_payload hr
  obtain ⟨h1, h2, -⟩ := Request.code_other r
  have hs := (sessionVerdict_clockOut (s := s) (p := p) (zeros (r.payload.length + 5 + 1)) r.code _).trans
    (sessionVerdict_admits (.inr (.inr ⟨h1, h2, hopen, rfl⟩)))
  rw [exec_put_requestFrame h _ _ _ (length_payload_le hr), judge_ok hrow hs hparse, State.carryOut, State.dispatch,
    State.clockOut_get, State.clockOut, State.setPort_setPort]
  rfl

/-- Settles O10: the status byte, then the held response, then fill. -/
theorem getReadsResponse : Obligations.GetReadsResponse := by
  intro s p n h
  refine ⟨?_, rfl⟩
  simp only [exec, execGet, readTransaction_alive h]
  cases hs : (s.ports.get p).slot with
  | ready | working => rfl
  | answerReady r =>
    simp only [ReqSlot.heldBytes, ReqSlot.afterGet, Response.bytes_eq, Nat.add_comm 1]

/-- Settles O11: a PEEK is a GET that finds no response. -/
theorem peekReadsStatus : Obligations.PeekReadsStatus := fun _ _ _ h => congrArg _ (readTransaction_alive h ..)

/-- Settles O12: the first byte selects the transaction. -/
theorem voidTransactionIsFlagged : Obligations.VoidTransactionIsFlagged := by
  intro s p b l
  refine ⟨rfl, linkCommand_put p l, linkCommand_get p l, linkCommand_peek p l, linkCommand_miso b l, fun h1 h2 h3 => ?_⟩
  have hb : isTypeCode b = false := isTypeCode_false.2 ⟨h1, h2, h3⟩
  refine ⟨linkCommand_void hb p l, fun hl => ?_⟩
  rw [exec_void hb, hl]
  rfl

end Sys2Proof.Link
end

section
/-!
PROOFS. Sessions (R152–R157): IDENTIFY, OPEN and CLOSE, PRSTn, and the stages of a teardown.
-/

namespace Sys2Proof.Machine

variable {s : State} {p : Port}

/-- R148, log 4: IDENTIFY, OPEN and CLOSE, taken, are judged as their frames are. -/
theorem exec_own_takes {note : Bool} (h : s.Takes p note) (code number tag : Byte) :
    (.next (putTransaction p 5 (judgeFrame p code number tag []) s) : Result) =
      .next (judgeFrame p code number tag [] note (s.clockOut p (zeros (5 + 1)))) :=
  congrArg _ (putTransaction_takes h _ _)

/-- R109, R157: stage 1 closes the queue as the statement `closedQueue` says. -/
theorem closed_queue_eq (ds : List Dispatch) (q : EventQueue) :
    EventQueue.closed { q with attention := attentionAfter ds q.attention } =
      { q with records := [], isOpen := false, attn := false, attention := attentionAfter ds q.attention } := rfl

/-- R156, log 10: PRSTn asserted recalls no request, so that the event queue takes those in flight to it all the same. -/
theorem attentionAfter_map_unawaited (ds : List Dispatch) (b : Bool) :
    attentionAfter (ds.map fun d => ⟨d.request, false⟩) b = attentionAfter ds b := by
  simp only [attentionAfter, List.foldl_map]

/-- R161, log 19: the code of a session state in the response of IDENTIFY. -/
theorem byteOf_sessionCode (ss : Session) :
    byteOf ss.code = match ss with
      | .closed => 0
      | .opened => 1
      | .closing _ => 2 := by
  cases ss <;> rfl

/-- R152: the response of IDENTIFY, byte by byte. -/
theorem identifyBytes_eq (p : Port) (u : PortUnit) (now : Word) :
    identifyBytes p u now =
      [0x1C, 0x3A, 0x01, 0x04, 0x10, BitVec.ofNat 8 p.val,
        (match u.session with
          | .closed => 0
          | .opened => 1
          | .closing _ => 2),
        u.number, 4, 4, 32, 16, 8, 3, 32, 4, 64, 16, 8, 48] ++ le32 now := by
  rw [identifyBytes, byteOf_sessionCode]
  rfl

/-! ### Stages of a teardown -/

/-- A list in which each entry makes one item or none. -/
theorem flatMap_ite_singleton {α β : Type} (f : α → Bool) (g : α → β) (l : List α) :
    (l.flatMap fun x => if f x then [g x] else []) = (l.filter f).map g := by
  induction l with
  | nil => rfl
  | cons x xs ih => cases h : f x <;> simp [h, ih]

/-- R140: the MESSAGE_UNDELIVERED of one message, as a port is handed it. -/
theorem eventsFor_undeliveredEvents (q : Port) (ports : Table 4 PortUnit) (now : Word) (m : Message) :
    eventsFor q (undeliveredEvents ports now m) =
      if decide (m.sender = q ∧ m.senderSession ≠ 0 ∧ (ports.get q).session = .opened) then
        [messageEvent .messageUndelivered (some .teardown) m.id m.recipient now]
      else [] := by
  unfold undeliveredEvents
  by_cases hm : m.senderSession ≠ 0 ∧ (ports.get m.sender).session = .opened
  · rw [if_pos hm, eventsFor_cons]
    by_cases hq : m.sender = q
    · subst hq
      rw [if_pos rfl, if_pos (decide_eq_true ⟨rfl, hm⟩)]
      rfl
    · rw [if_neg hq, if_neg fun h => hq (of_decide_eq_true h).1]
      rfl
  · rw [if_neg hm, if_neg]
    · rfl
    · intro h
      obtain ⟨rfl, hm'⟩ := of_decide_eq_true h
      exact hm hm'

/-- R140: the events of stage 2, in ascending message id. -/
theorem eventsFor_undelivered (q : Port) :
    eventsFor q ((byId (addressedTo p s.pool)).flatMap (undeliveredEvents s.ports s.timebase)) =
      (List.range 256).flatMap fun k =>
        (s.pool.filter fun m =>
          m.id = BitVec.ofNat 8 k ∧ m.recipient = p ∧ m.sender = q ∧ m.senderSession ≠ 0 ∧
            (s.ports.get q).session = .opened).map fun m =>
          { kind := .messageUndelivered, cause := some .teardown, source := some (.message m.id), detail := none,
            generation := 0, value := p.val, timestamp := s.timebase } := by
  rw [byId, List.flatMap_assoc, eventsFor_flatMap]
  refine List.flatMap_congr fun k _ => ?_
  rw [eventsFor_flatMap]
  simp only [eventsFor_undeliveredEvents]
  have hfilter :
      (((addressedTo p s.pool).filter fun m => m.id = byteOf k).filter fun m =>
        m.sender = q ∧ m.senderSession ≠ 0 ∧ (s.ports.get q).session = .opened) =
      s.pool.filter fun m => m.id = BitVec.ofNat 8 k ∧ m.recipient = p ∧ m.sender = q ∧ m.senderSession ≠ 0 ∧
        (s.ports.get q).session = .opened := by
    rw [addressedTo, List.filter_filter, List.filter_filter]
    refine List.filter_congr fun m _ => ?_
    rw [Bool.eq_iff_iff]
    simp only [Bool.and_eq_true, decide_eq_true_eq]
    exact ⟨fun ⟨⟨hown, hid⟩, hr⟩ => ⟨hid, hr, hown⟩, fun ⟨hid, hr, hown⟩ => ⟨⟨hown, hid⟩, hr⟩⟩
  rw [flatMap_ite_singleton, hfilter]
  refine List.map_congr_left fun m hm => ?_
  obtain ⟨-, hr, -⟩ := of_decide_eq_true (List.mem_filter.1 hm).2
  rw [messageEvent, hr]

/-- R132: a trigger after stage 3. -/
theorem Trigger.tearDown_eq (p : Port) (t : Trigger) :
    t.tearDown p = { t with config := if t.config.map TriggerConfig.author = some p then none else t.config } := by
  unfold Trigger.tearDown
  cases hc : t.config with
  | none => cases t; subst hc; rfl
  | some c =>
    by_cases ha : c.author = p
    · simp [ha]
    · cases t; subst hc; simp [ha]

/-- R37: whether an axis is ARMED for a port. -/
def AxisUnit.armedFor (p : Port) (u : AxisUnit) : Bool := match u.state with
  | .armed a => decide (a.aligner = p)
  | _ => false

/-- R37, R20: an axis unit after stage 4, and the events of the stage. -/
theorem AxisUnit.tearDown_eq (ax : Axis) (now : Word) (p : Port) (u : AxisUnit) :
    u.tearDown ax now p =
      ({ u with state := if u.armedFor p then .free else u.state, subscribers := u.subscribers.put p false },
        if u.armedFor p then AxisUnit.stateEvents ax now .teardown { u with state := .free } else []) := by
  unfold AxisUnit.tearDown AxisUnit.armedFor
  cases hst : u.state with
  | armed a => by_cases ha : a.aligner = p <;> simp [ha, hst]
  | idle | free | aligned | lost => simp [hst]

end Sys2Proof.Machine

namespace Sys2Proof.Sessions

open Machine

/-- Settles O13: IDENTIFY is admitted in every session state. -/
theorem identifyReports : Obligations.IdentifyReports := by
  intro s p note number tag h
  have hs : sessionVerdict ((s.clockOut p (zeros (5 + 1))).ports.get p) 0x01 number = none := rfl
  refine (exec_own_takes h 0x01 number tag).trans (congrArg _ ?_)
  rw [judge_ok row_identify hs rfl, State.carryOut, clockOut_respond, State.clockOut_get]
  rw [identifyBytes_eq]
  rfl

/-- Settles O14: OPEN is carried out in CLOSED alone. -/
theorem openSession : Obligations.OpenSession := by
  intro s p note number tag h
  have hrun := exec_own_takes h 0x02 number tag
  refine ⟨fun hs => hrun.trans (congrArg _ ?_), fun hs => hrun.trans (congrArg _ ?_), fun hs => hrun.trans (congrArg _ ?_)⟩
  · rw [judge_ok row_open ((sessionVerdict_clockOut _ _ _).trans (sessionVerdict_open_closed hs number)) rfl]
    simp only [State.carryOut, State.openedSession, State.respond, State.setQueue_ports, State.clockOut,
      State.setPort_setPort, State.setPort_queues, State.setPort_ports, Table.get_put_self]
    simp only [State.setPort, State.setQueue, Table.put_put]
    rfl
  · exact judge_session_clockOut row_open (sessionVerdict_open_opened hs number) 5 tag [] note
  · exact judge_session_clockOut row_open (sessionVerdict_open_closing hs number) 5 tag [] note

/-- Settles O15: CLOSE is carried out in OPEN with the session's number, and starts the teardown. -/
theorem closeSession : Obligations.CloseSession := by
  intro s p note number tag h
  have hrun := exec_own_takes h 0x03 number tag
  refine ⟨fun hs hn => hrun.trans (congrArg _ ?_), fun hs hn => hrun.trans (congrArg _ ?_),
    fun hs => hrun.trans (congrArg _ ?_), fun hs => hrun.trans (congrArg _ ?_)⟩
  · have hadmit := sessionVerdict_admits (.inr (.inr ⟨(by decide : (0x03 : Byte) ≠ 0x01), by decide, hs, hn⟩))
    rw [judge_ok row_close ((sessionVerdict_clockOut _ _ _).trans hadmit) rfl, State.carryOut, State.closeAccepted,
      State.clockOut_get, State.clockOut, State.setPort_setPort, startTeardown_setPort]
    rfl
  · exact judge_session_clockOut row_close (sessionVerdict_stale (by decide) (by decide) hs hn) 5 tag [] note
  · exact judge_session_clockOut row_close (sessionVerdict_close_closed hs number) 5 tag [] note
  · exact judge_session_clockOut row_close (sessionVerdict_close_closing hs number) 5 tag [] note

/-- Settles O16: PRSTn clears the slot and, in OPEN, starts the teardown. -/
theorem portReset : Obligations.PortReset := by
  intro s p
  refine ⟨fun hp hs => ?_, fun hp hs => ?_, rfl⟩
  · simp only [exec, execPrstnAssert, hp, hs, Bool.false_eq_true, if_false]
    rfl
  · simp only [exec, execPrstnAssert, hp, hs, Bool.false_eq_true, if_false, if_true, startTeardown_setPort,
      PortUnit.reseted, attentionAfter_map_unawaited]
    rfl

end Sys2Proof.Sessions

namespace Sys2Proof.Teardown

open Machine

/-- Settles O17: the events message by message, in the order of their ids. -/
theorem teardownStage2 : Obligations.TeardownStage2 := by
  intro s p hs hf
  have hready : s.stageReady p .two .messageRelay = true := State.stageReady_iff.2 ⟨hs, hf⟩
  simp only [exec, execTeardownStage2, hready, if_true, relayTearDown, State.hand_eq_told, eventsFor_undelivered]
  rfl

/-- Settles O18: a trigger is OFF afterwards exactly when its record was the port's. -/
theorem teardownStage3 : Obligations.TeardownStage3 := by
  intro s p hs hf
  have hready : s.stageReady p .three .captureUnit = true := State.stageReady_iff.2 ⟨hs, hf⟩
  simp only [exec, execTeardownStage3, hready, if_true, captureTearDown, Trigger.tearDown_eq]
  rfl

/-- Settles O19: by whether the axis is ARMED for the port. -/
theorem teardownStage4 : Obligations.TeardownStage4 := by
  intro s p ax taken hs ht hf
  have hst : (s.ports.get p).stage = some (.four taken) := PortUnit.stage_eq_some.2 hs
  simp only [exec, execTeardownStage4, hst, ht, hf, Bool.not_false, Bool.and_self, if_true, nextStage_eq, State.axisStep_eq,
    AxisUnit.tearDown_eq, eventsFor_ite, eventsFor_stateEvents, eventsFor_nil, ← ite_and, State.toStage, apply_ite Session.closing]
  rfl

/-- Settles O21: a pending CLOSE is answered, if the slot still awaits it. -/
theorem teardownStage6 : Obligations.TeardownStage6 := by
  intro s p hs
  have hst : (s.ports.get p).stage = some .six := PortUnit.stage_eq_some.2 hs
  refine ⟨fun hc => ?_, fun code tag note hc hslot => ?_⟩
  · simp only [exec, execTeardownStage6, hst, if_true, PortUnit.ended, hc, Bool.false_eq_true, if_false]
  · simp only [exec, execTeardownStage6, hst, if_true, PortUnit.ended, hc, PortUnit.receive, hslot]
    rfl

end Sys2Proof.Teardown
end

section
/-!
PROOFS. Stage 5 of a teardown at the zone controller (R52, R68, R91): the zones, the output records and the events that the
claim leaves, as the statement writes them.
-/

namespace Sys2Proof.Machine

variable {s : State} {p : Port}

theorem Output.heldBy_eq_decide (p : Port) (out : Output) :
    out.heldBy p = decide (out.lease.map Lease.holder = some p) := by
  unfold Output.heldBy
  cases out.lease <;> simp

theorem Slot.tearDown_eq (p : Port) (sl : Slot) :
    sl.tearDown p =
      { sl with
        zone := if sl.authoredBy p then none
          else sl.zone.map fun zn => { zn with subscribers := zn.subscribers.put p none } } := by
  unfold Slot.tearDown Slot.unsubscribe
  cases sl.authoredBy p <;> rfl

/-! ### The output records -/

/-- R91: the lease part of stage 5 at one output. -/
theorem Output.tearDown_eq (p : Port) (out : Output) :
    out.tearDown p =
      { out with
        lease := if out.heldBy p then (withoutWaiter p out.waiters).head?.map fun w => newLease w.port w.duration
          else out.lease
        waiters := if out.heldBy p then (withoutWaiter p out.waiters).tail else withoutWaiter p out.waiters
        force := if out.heldBy p then .none else out.force } := by
  cases h : out.heldBy p with
  | false => rw [Output.tearDown_of_not_held h]; rfl
  | true =>
    have hheld : Output.heldBy p { out with waiters := withoutWaiter p out.waiters } = true := h
    rw [Output.tearDown, if_pos hheld, Output.endLease_eq]
    rfl

theorem and_not_authoredSet (map : BitVec 32) :
    map &&& ~~~s.authoredSet p = BitVec.ofFnLE fun z : Fin 32 => map.getLsbD z.val && !(s.zones.get z).authoredBy p := by
  refine BitVec.eq_of_getLsbD_eq fun i hi => ?_
  have hset := getLsbD_zoneSet (fun z => (s.zones.get z).authoredBy p) ⟨i, hi⟩
  rw [BitVec.getLsbD_and, BitVec.getLsbD_not, BitVec.getLsbD_ofFnLE, dif_pos hi, State.authoredSet, hset]
  simp [hi]

/-- R52: whether a map holds a zone that the port authors. -/
theorem and_authoredSet_eq_zero_iff (map : BitVec 32) :
    map &&& s.authoredSet p = 0 ↔
      ((List.finRange 32).any fun z => map.getLsbD z.val && (s.zones.get z).authoredBy p) = false := by
  have hbit (z : Fin 32) : (map &&& s.authoredSet p).getLsbD z.val = (map.getLsbD z.val && (s.zones.get z).authoredBy p) := by
    rw [BitVec.getLsbD_and, State.authoredSet, getLsbD_zoneSet]
  constructor
  · intro h
    refine List.any_eq_false.2 fun z _ => ?_
    rw [← hbit, h]
    exact Bool.eq_false_iff.1 BitVec.getLsbD_zero
  · intro h
    refine BitVec.eq_of_getLsbD_eq fun i hi => ?_
    have hz := List.any_eq_false.1 h ⟨i, hi⟩ (List.mem_finRange _)
    rw [← hbit] at hz
    exact (Bool.eq_false_iff.2 hz).trans BitVec.getLsbD_zero.symm

/-- R52, R91: an output record after stage 5. -/
theorem get_tornOutputs (o : Line) :
    (s.tornOutputs p).get o =
      { s.tornOutput p (s.outputs.get o) with
        requested :=
          if (s.outputs.get o).heldBy p ||
              (List.finRange 32).any fun z => (s.outputs.get o).map.getLsbD z.val && (s.zones.get z).authoredBy p then
            requestedValue (s.zones.mapIdx fun _ sl => sl.tearDown p) (s.tornOutput p (s.outputs.get o))
          else (s.outputs.get o).requested } := by
  rw [State.tornOutputs, Table.get_mapIdx]
  simp only [and_authoredSet_eq_zero_iff]
  have hreq : (s.tornOutput p (s.outputs.get o)).requested = (s.outputs.get o).requested := by
    rw [State.tornOutput, Output.tearDown_eq]
  cases (s.outputs.get o).heldBy p <;>
    cases (List.finRange 32).any fun z => (s.outputs.get o).map.getLsbD z.val && (s.zones.get z).authoredBy p
  · simp only [and_self, if_true, Bool.or_self, Bool.false_eq_true, if_false, ← hreq]
  · rfl
  · rfl
  · rfl

/-- R52, R91: an output record after stage 5, but for its requested value, as the statement writes it. -/
theorem tornOutput_eq (out : Output) :
    s.tornOutput p out =
      { out with
        map := BitVec.ofFnLE fun z : Fin 32 => out.map.getLsbD z.val && !(s.zones.get z).authoredBy p
        lease :=
          if decide (out.lease.map Lease.holder = some p) then
            (out.waiters.filter fun w => w.port ≠ p).head?.map fun w => ⟨w.port, w.duration, w.duration + 1⟩
          else out.lease
        waiters :=
          if decide (out.lease.map Lease.holder = some p) then (out.waiters.filter fun w => w.port ≠ p).tail
          else out.waiters.filter fun w => w.port ≠ p
        force := if decide (out.lease.map Lease.holder = some p) then .none else out.force } := by
  rw [State.tornOutput, Output.tearDown_eq, and_not_authoredSet, Output.heldBy_eq_decide]
  rfl

theorem zonesTorn_eq :
    (s.zones.mapIdx fun _ sl => sl.tearDown p) = s.zones.mapIdx fun z sl =>
      { sl with
        zone := if (s.zones.get z).authoredBy p then none
          else sl.zone.map fun zn => { zn with subscribers := zn.subscribers.put p none } } :=
  Table.mapIdx_congr fun _ => Slot.tearDown_eq ..

theorem tornOutputs_eq (s : State) (p : Port) :
    s.tornOutputs p = s.outputs.mapIdx fun _ out =>
      { s.tornOutput p out with
        requested :=
          if decide (out.lease.map Lease.holder = some p) ||
              (List.finRange 32).any fun z => out.map.getLsbD z.val && (s.zones.get z).authoredBy p then
            requestedValue (s.zones.mapIdx fun _ sl => sl.tearDown p) (s.tornOutput p out)
          else out.requested } :=
  Table.ext_get fun o => by
    rw [get_tornOutputs, Table.get_mapIdx, Output.heldBy_eq_decide]

/-! ### The events -/

/-- R91: the LEASE_GRANTED of stage 5, as a port is handed them. -/
theorem eventsFor_tearDownLeaseEvents (q p : Port) (now : Word) (outs : Table 8 Output) :
    eventsFor q (tearDownLeaseEvents p now outs) =
      (List.finRange 8).flatMap fun o =>
        match (if (outs.get o).heldBy p then (withoutWaiter p (outs.get o).waiters).head? else none) with
        | none => []
        | some w => if w.port = q then [leaseEvent .leaseGranted .teardown o w.duration now] else [] := by
  rw [tearDownLeaseEvents, eventsFor_flatMap]
  refine List.flatMap_congr fun o _ => ?_
  dsimp only
  have hsame : Output.heldBy p { outs.get o with waiters := withoutWaiter p (outs.get o).waiters } =
      (outs.get o).heldBy p := rfl
  rw [hsame]
  cases (outs.get o).heldBy p with
  | false => rfl
  | true =>
    simp only [if_true]
    rw [Output.eventsFor_endEvents q o (by decide)]
    cases (withoutWaiter p (outs.get o).waiters).head? <;> rfl

/-- R52: the events of the deletion of one zone, as a port is handed them. -/
theorem eventsFor_tearDownZoneEvents (q p : Port) (s : State) (outs : Table 8 Output) (z : ZoneId) :
    eventsFor q (tearDownZoneEvents p s outs z) =
      match (s.zones.get z).zone with
      | none => []
      | some zn =>
        if zn.author ≠ p then []
        else
          (if q ≠ p ∧ (zn.subscribers.get q).isSome then
            [zoneEvent .zoneRemoved .teardown z (s.zones.get z).generation zn.membership (s.views.get zn.axis).last s.timebase]
          else []) ++
          (List.finRange 8).flatMap fun o =>
            if (outs.get o).map.getLsbD z.val = true ∧ (outs.get o).lease.map Lease.holder = some q then
              [mapReduced o z (s.zones.get z).generation s.timebase]
            else [] := by
  unfold tearDownZoneEvents
  dsimp only
  cases (s.zones.get z).zone with
  | none => rfl
  | some zn =>
    dsimp only
    rw [eventsFor_ite]
    refine if_congr .rfl rfl ?_
    rw [eventsFor_append, eventsFor_removedEvents, eventsFor_flatMap]
    refine congr (congrArg _ (if_congr ?_ rfl rfl)) (List.flatMap_congr fun o _ => ?_)
    · rw [Table.get_put]
      split
      · next he => simp [he]
      · next he => simp [Ne.symm he]
    · cases (outs.get o).lease with
      | none => simp
      | some l =>
        dsimp only
        rw [eventsFor_ite, eventsFor_cons, eventsFor_nil, List.append_nil, ← ite_and]
        exact if_congr (by simp [Output.maps]) rfl rfl

end Sys2Proof.Machine

namespace Sys2Proof.Teardown

open Machine

/-- Settles O20: the tables and the events of the one claim, part by part. -/
theorem teardownStage5 : Obligations.TeardownStage5 := by
  intro s p hs hf
  have hready : s.stageReady p .five .zoneController = true := State.stageReady_iff.2 ⟨hs, hf⟩
  simp only [exec, execTeardownStage5, hready, if_true, zoneTearDown_eq, State.hand_eq_told, State.commitOutputs_eq,
    State.tornEvents, eventsFor_append, eventsFor_tearDownLeaseEvents, eventsFor_flatMap, eventsFor_tearDownZoneEvents,
    tornOutputs_eq, tornOutput_eq, zonesTorn_eq, Table.get_mapIdx, Output.tearDown_eq, Output.heldBy_eq_decide]
  rfl

end Sys2Proof.Teardown
end

section
/-!
PROOFS. Axis units (01, 02): CONFIGURE AXIS, ALIGN, the encoder's steps and faults, and the index pulse.
-/

namespace Sys2Proof.Machine

/-! ### CONFIGURE AXIS (R8) -/

section

variable {s : State} {ax : Axis} {m : Byte} {d : Direction} {low high : Int} {pitch : BitVec 24} {tol : Fin 16}

theorem configureAxis_of_not_idle (hi : (s.axes.get ax).state ≠ .idle) :
    configureAxis ax m d low high pitch tol s = (s, .refuse .axisState) := if_pos hi

/-- R8, R164: the three multiplier codes. -/
theorem Multiplier.ofCode_eq_none_iff : Multiplier.ofCode m = none ↔ m ≠ 1 ∧ m ≠ 2 ∧ m ≠ 4 := by
  unfold Multiplier.ofCode
  by_cases h1 : m = 1
  · simp [h1]
  · by_cases h2 : m = 2
    · simp [h2]
    · by_cases h4 : m = 4
      · simp [h4]
      · refine iff_of_true ?_ ⟨h1, h2, h4⟩
        rw [if_neg h1, if_neg h2, if_neg h4]

theorem Multiplier.ofCode_accepted (h : ¬(m ≠ 1 ∧ m ≠ 2 ∧ m ≠ 4)) :
    Multiplier.ofCode m = some (if m = 1 then .x1 else if m = 2 then .x2 else .x4) ∧
      (if m = 1 then Multiplier.x1 else if m = 2 then .x2 else .x4).code = m := by
  by_cases h1 : m = 1
  · subst h1
    exact ⟨rfl, rfl⟩
  · by_cases h2 : m = 2
    · subst h2
      exact ⟨rfl, rfl⟩
    · obtain rfl : m = 4 := by
        by_contra h4
        exact h ⟨h1, h2, h4⟩
      exact ⟨rfl, rfl⟩

theorem configureAxis_of_bad (hi : (s.axes.get ax).state = .idle)
    (hb : high < low ∨ (1 ≤ pitch.toNat ∧ pitch.toNat ≤ 7) ∨ (m ≠ 1 ∧ m ≠ 2 ∧ m ≠ 4)) :
    configureAxis ax m d low high pitch tol s = (s, .refuse .badArgument) := by
  refine (if_neg (not_not.2 hi)).trans ?_
  split
  · rfl
  · next hok =>
    have hm := (or_assoc.2 hb).resolve_left hok
    rw [Multiplier.ofCode_eq_none_iff.2 hm]

theorem configureAxis_accepted (hi : (s.axes.get ax).state = .idle)
    (hb : ¬(high < low ∨ (1 ≤ pitch.toNat ∧ pitch.toNat ≤ 7) ∨ (m ≠ 1 ∧ m ≠ 2 ∧ m ≠ 4))) :
    configureAxis ax m d low high pitch tol s =
      (s.setAxis ax
        { s.axes.get ax with
          config := ⟨if m = 1 then .x1 else if m = 2 then .x2 else .x4, d, low, high, pitch, tol⟩ },
        .ok ([finCode ax, m, d.code] ++ signedBytes low ++ signedBytes high ++ le24 pitch ++ [finCode tol])) := by
  rw [← or_assoc, not_or] at hb
  obtain ⟨hbounds, hm⟩ := hb
  obtain ⟨hcode, hback⟩ := Multiplier.ofCode_accepted hm
  refine (if_neg (not_not.2 hi)).trans ((if_neg hbounds).trans ?_)
  rw [hcode]
  simp only [AxisConfig.bytes, hback]

end

/-! ### ALIGN (R24–R29) -/

theorem AxisUnit.presetOk_eq_false_iff (u : AxisUnit) (x : Int) :
    u.presetOk x = false ↔ x < u.config.low ∨ u.config.high < x ∨
      x - u.offset < -1073741823 ∨ 1073741822 < x - u.offset := by
  rw [AxisUnit.presetOk, Bool.and_eq_false_iff, inWindow_eq_false_iff, countInside_eq_false_iff, or_assoc]
  have hlow : x - u.offset ≤ -1073741824 ↔ x - u.offset < -1073741823 := by omega
  have hhigh : 1073741823 ≤ x - u.offset ↔ 1073741822 < x - u.offset := by omega
  rw [hlow, hhigh]

section

variable {s : State} {p : Port} {ax : Axis} {preset : Int} {q : Qualifier} {d : DirReq}

theorem alignAxis_of_idle (hs : (s.axes.get ax).state = .idle) :
    alignAxis p ax preset q d s = (s, .refuse .axisState) := by
  simp only [alignAxis, hs]

theorem alignAxis_of_other {a : Alignment} (hs : (s.axes.get ax).state = .armed a) (hp : a.aligner ≠ p) :
    alignAxis p ax preset q d s = (s, ⟨.axisBusy, [finCode a.aligner]⟩) := by
  simp only [alignAxis, hs]
  exact if_pos hp

theorem alignAxis_of_badPreset {st : AxisState} (hs : (s.axes.get ax).state = st) (hi : st ≠ .idle)
    (hp : ∀ a, st = .armed a → a.aligner = p) (hb : (s.axes.get ax).presetOk preset = false) :
    alignAxis p ax preset q d s = (s, outOfRange 1) := by
  cases st with
  | idle => exact absurd rfl hi
  | armed a => simp only [alignAxis, hs, hp a rfl, hb, ne_eq, not_true_eq_false, if_false, Bool.not_false, if_true]
  | free | aligned | lost => simp only [alignAxis, hs, hb, Bool.not_false, if_true]

/-- R26: the aligner replaces its own record. -/
theorem alignAxis_again {a : Alignment} (hs : (s.axes.get ax).state = .armed a) (hp : a.aligner = p)
    (hb : (s.axes.get ax).presetOk preset = true) :
    alignAxis p ax preset q d s =
      (s.setAxis ax { s.axes.get ax with state := .armed ⟨p, preset, q, d⟩ },
        alignAnswer (s.axes.get ax) ⟨p, preset, q, d⟩ true) := by
  simp only [alignAxis, hs, hp, hb, ne_eq, not_true_eq_false, if_false, Bool.not_true, Bool.false_eq_true]

theorem alignAxis_live {st : AxisState} (hs : (s.axes.get ax).state = st) (hst : st = .free ∨ st = .aligned)
    (hb : (s.axes.get ax).presetOk preset = true) :
    alignAxis p ax preset q d s =
      (s.axisStep ax ({ s.axes.get ax with state := .armed ⟨p, preset, q, d⟩ },
          AxisUnit.stateEvents ax s.timebase .align { s.axes.get ax with state := .armed ⟨p, preset, q, d⟩ }),
        alignAnswer (s.axes.get ax) ⟨p, preset, q, d⟩ false) := by
  rcases hst with rfl | rfl <;> simp only [alignAxis, hs, hb, Bool.not_true, Bool.false_eq_true, if_false]

theorem alignAxis_lost {c : LostCause} (hs : (s.axes.get ax).state = .lost c)
    (hb : (s.axes.get ax).presetOk preset = true) :
    alignAxis p ax preset q d s =
      if (s.axes.get ax).lineFault then (s, .refuse .lineFault)
      else if (s.axes.get ax).inRange = false then (s, outOfRange 2)
      else
        (s.axisStep ax
          (AxisUnit.notify (.thaw (s.axes.get ax).position .resume)
              { s.axes.get ax with state := .armed ⟨p, preset, q, d⟩ },
            AxisUnit.stateEvents ax s.timebase .align { s.axes.get ax with state := .armed ⟨p, preset, q, d⟩ }),
          alignAnswer (s.axes.get ax) ⟨p, preset, q, d⟩ false) := by
  simp only [alignAxis, hs, hb, Bool.not_true, Bool.false_eq_true, if_false, Bool.not_eq_true']

end

/-! ### Steps of an axis unit -/

/-- A producer that hands nothing over leaves the queues as they are. -/
theorem State.told_nil (s : State) (src : Producer) : (s.told src fun _ => []) = s.queues :=
  Table.ext_get fun p => by simp [State.told]

theorem State.axisStep_silent (ax : Axis) (u : AxisUnit) (s : State) :
    s.axisStep ax (u, []) = { s with axes := s.axes.put ax u } := by
  rw [State.axisStep_eq]
  simp only [eventsFor_nil, State.told_nil]

/-- R10, R35: what each port is handed when an axis unit enters LOST. -/
def AxisUnit.lostEvents (ax : Axis) (now : Word) (c : LostCause) (u : AxisUnit) (q : Port) : List Event :=
  (match u.state with
    | .armed a => if a.aligner = q then [axisEvent .alignAborted (lostCauseOf c) ax now (.lost c) u.position] else []
    | _ => []) ++
  (if u.subscribers.get q then [axisEvent .axisState (lostCauseOf c) ax now (.lost c) u.position] else [])

theorem AxisUnit.eventsFor_abortedEvents (q : Port) (ax : Axis) (now : Word) (cause : Cause) (tag : AxisTag) (u : AxisUnit) :
    eventsFor q (u.abortedEvents ax now cause tag) = match u.state with
      | .armed a => if a.aligner = q then [axisEvent .alignAborted cause ax now tag u.position] else []
      | _ => [] := by
  unfold AxisUnit.abortedEvents
  cases u.state with
  | armed a => exact (eventsFor_cons ..).trans (List.append_nil _)
  | idle | free | aligned | lost => rfl

/-- R10: an axis unit enters LOST. -/
theorem State.axisStep_enterLost (ax : Axis) (c : LostCause) (u : AxisUnit) (s : State) :
    s.axisStep ax (u.enterLost ax s.timebase c) =
      { s with
        axes := s.axes.put ax { u with state := .lost c, outbox := u.outbox ++ [.freeze u.position (.lost c)] }
        queues := s.told (.axisUnit ax) (u.lostEvents ax s.timebase c) } := by
  rw [State.axisStep_eq]
  simp only [AxisUnit.enterLost, eventsFor_append, AxisUnit.eventsFor_abortedEvents, eventsFor_stateEvents]
  rfl

/-! ### The encoder (R1, R2, R5, R21) -/

/-- R21: a unit with another count, and the sample that it then offers. -/
def AxisUnit.offering (c : Int) (u : AxisUnit) : AxisUnit :=
  { u with
    count := c
    outbox :=
      if c = u.count then u.outbox
      else match u.outbox.getLast? with
        | some (.sample _ _) => u.outbox.dropLast ++ [.sample (c + u.offset) (u.state = .aligned)]
        | _ => u.outbox ++ [.sample (c + u.offset) (u.state = .aligned)] }

theorem AxisUnit.offering_eq (c : Int) (u : AxisUnit) :
    u.offering c =
      if c = u.count then { u with count := c } else AxisUnit.pushSample (u.state = .aligned) { u with count := c } := by
  unfold AxisUnit.offering AxisUnit.pushSample
  by_cases h : c = u.count
  · simp only [h, if_true]
  · simp only [h, if_false]
    cases u.outbox.getLast? with
    | none => rfl
    | some m => cases m <;> rfl

theorem AxisUnit.countedStep_live {u : AxisUnit} (h : u.state.isLive = true) (ax : Axis) (now : Word) (d : StepDir) :
    u.countedStep ax now d =
      if (u.offering (countStep d u.count)).inRange then (u.offering (countStep d u.count), [])
      else (u.offering (countStep d u.count)).enterLost ax now .range := by
  rw [AxisUnit.offering_eq, AxisUnit.countedStep, if_pos h]

theorem AxisUnit.countedStep_dead {u : AxisUnit} (h : u.state.isLive = false) (ax : Axis) (now : Word) (d : StepDir) :
    u.countedStep ax now d = ({ u with count := countStep d u.count }, []) := by
  rw [AxisUnit.countedStep, h]
  rfl

theorem AxisUnit.encoderStep_idle {u : AxisUnit} (h : u.state = .idle) (ax : Axis) (now : Word) (raw : StepDir) :
    u.encoderStep ax now raw = ({ u with phase := u.phase.step raw }, []) := if_pos h

theorem AxisUnit.encoderStep_eq {u : AxisUnit} (h : u.state ≠ .idle) (ax : Axis) (now : Word) (raw : StepDir) :
    u.encoderStep ax now raw =
      let d := Direction.apply u.config.direction raw
      let v := { u with phase := u.phase.step raw, lastStep := some d }
      if counted u.config.multiplier u.phase (u.phase.step raw) then v.countedStep ax now d else (v, []) := if_neg h

/-- R1: the phase after a raw step. -/
theorem Phase.step_eq (raw : StepDir) (ph : Phase) :
    ph.step raw = match raw, ph with
      | .positive, .lowLow => .highLow
      | .positive, .highLow => .highHigh
      | .positive, .highHigh => .lowHigh
      | .positive, .lowHigh => .lowLow
      | .negative, .lowLow => .lowHigh
      | .negative, .lowHigh => .highHigh
      | .negative, .highHigh => .highLow
      | .negative, .highLow => .lowLow := by
  cases raw <;> cases ph <;> rfl

/-- R1: the phase across from a phase. -/
theorem Phase.opposite_eq (ph : Phase) :
    ph.opposite = match ph with
      | .lowLow => .highHigh
      | .highHigh => .lowLow
      | .highLow => .lowHigh
      | .lowHigh => .highLow := by
  cases ph <;> rfl

theorem Direction.apply_eq (c : Direction) (raw : StepDir) :
    Direction.apply c raw = match c, raw with
      | .normal, d => d
      | .inverted, .positive => .negative
      | .inverted, .negative => .positive := by
  cases c with
  | normal => rfl
  | inverted => cases raw <;> rfl

/-- R5: a counted step, with saturation, as a bound. -/
theorem countStep_eq (d : StepDir) (c : Int) :
    countStep d c = match d with
      | .positive => min (c + 1) 1073741823
      | .negative => max (c - 1) (-1073741824) := by
  cases d <;> simp only [countStep, Config.countMax, Config.countMin] <;> split_ifs <;> omega

/-- R2: which steps a multiplier counts. -/
theorem counted_eq (m : Multiplier) (a b : Phase) :
    counted m a b = match m with
      | .x4 => true
      | .x2 => decide (a.levelA ≠ b.levelA)
      | .x1 => decide (a.levelB = false ∧ b.levelB = false) := by
  cases m with
  | x4 => rfl
  | x2 => cases a <;> cases b <;> rfl
  | x1 => cases a <;> cases b <;> rfl

/-! ### The index pulse (R4, R30–R34, R39) -/

section

variable {u : AxisUnit} {ax : Axis} {now : Word} {ts : Table 4 Trigger}

theorem AxisUnit.indexPulse_idle (h : u.state = .idle) : u.indexPulse ax now ts = (u, []) := by
  simp only [AxisUnit.indexPulse, h]

theorem AxisUnit.indexPulse_free (h : u.state = .free ∨ ∃ c, u.state = .lost c) :
    u.indexPulse ax now ts = ({ u with lastIndex := some u.count }, []) := by
  rcases h with h | ⟨c, h⟩ <;> simp only [AxisUnit.indexPulse, h]

theorem AxisUnit.indexPulse_armed {a : Alignment} (h : u.state = .armed a) :
    u.indexPulse ax now ts =
      if qualifierMet ts a.qualifier = true ∧ directionMet u.lastStep a.direction = true then u.completeAlign ax now a
      else ({ u with lastIndex := some u.count }, []) := by
  simp only [AxisUnit.indexPulse, h, Bool.and_eq_true]

theorem AxisUnit.indexPulse_aligned (h : u.state = .aligned) :
    u.indexPulse ax now ts =
      if u.spacingOk then ({ u with lastIndex := some u.count }, []) else u.enterLost ax now .spacing := by
  simp only [AxisUnit.indexPulse, h]

/-- R30: the qualifier against the level of its trigger input. -/
theorem qualifierMet_eq (ts : Table 4 Trigger) (q : Qualifier) :
    qualifierMet ts q = match q with
      | .none => true
      | .trigger i high => decide ((ts.get i).level = high) := by
  cases q with
  | none => rfl
  | trigger i high => exact Bool.beq_eq_decide_eq ..

theorem directionMet_eq (last : Option StepDir) (d : DirReq) :
    directionMet last d = match d with
      | .any => true
      | .positive => decide (last = some .positive)
      | .negative => decide (last = some .negative) := by
  cases d with
  | any => rfl
  | positive | negative => exact beq_eq_decide ..

/-- R39: the pulse fits the pitch. -/
theorem AxisUnit.spacingOk_iff {last : Int} (h : u.lastIndex = some last) :
    u.spacingOk = true ↔ u.config.pitch = 0 ∨ |u.count - last| ≤ u.config.tolerance.val ∨
      |(|u.count - last|) - u.config.pitch.toNat| ≤ u.config.tolerance.val := by
  rw [AxisUnit.spacingOk, h]
  simp only [Bool.or_eq_true, decide_eq_true_eq, or_assoc, Int.abs_eq_natAbs, Int.ofNat_le]

end

end Sys2Proof.Machine

namespace Sys2Proof.AxisUnits

open Machine

/-- Settles O24: the tests of R8 in their order. -/
theorem configureAxis : Obligations.ConfigureAxis := by
  intro s p ax m dir low high pitch tol aw rest h u
  change Machine.claim _ _ _ _ = _
  by_cases hi : u.state = .idle
  · rw [if_neg (not_not.2 hi)]
    by_cases hb : high < low ∨ (1 ≤ pitch.toNat ∧ pitch.toNat ≤ 7) ∨ (m ≠ 1 ∧ m ≠ 2 ∧ m ≠ 4)
    · rw [if_pos hb]
      exact claim_of_kept h (configureAxis_of_bad hi hb)
    · rw [if_neg hb]
      exact claim_of_setAxis h (configureAxis_accepted hi hb)
  · rw [if_pos hi]
    exact claim_of_kept h (configureAxis_of_not_idle hi)

/-- Settles O29: the cases of R25 by the axis state. -/
theorem align : Obligations.Align := by
  intro s p ax preset q d aw rest h u x badPreset armed ok told
  change Machine.claim _ _ _ _ = _
  have hbad : badPreset ↔ u.presetOk preset = false := (u.presetOk_eq_false_iff preset).symm
  have hok (hb : ¬badPreset) : u.presetOk preset = true := eq_true_of_ne_false fun hf => hb (hbad.2 hf)
  have hrange : u.inRange = false ↔ x < u.config.low ∨ u.config.high < x ∨ u.count ≤ -1073741824 ∨ 1073741823 ≤ u.count :=
    u.inRange_eq_false_iff
  cases hs : u.state with
  | idle => exact claim_of_kept h (alignAxis_of_idle hs)
  | armed a =>
    dsimp only
    split_ifs with hp hb
    · exact claim_of_kept h (alignAxis_of_other hs hp)
    · exact claim_of_kept h (alignAxis_of_badPreset hs nofun (fun b hb' => AxisState.armed.inj hb' ▸ not_not.1 hp) (hbad.1 hb))
    · exact claim_of_setAxis h (alignAxis_again hs (not_not.1 hp) (hok hb))
  | free | aligned =>
    dsimp only
    split_ifs with hb
    · exact claim_of_kept h (alignAxis_of_badPreset hs nofun nofun (hbad.1 hb))
    · exact claim_of_axisStep h (alignAxis_live hs (by simp) (hok hb)) fun r => eventsFor_stateEvents ..
  | lost c =>
    dsimp only
    split_ifs with hb hf hr
    · exact claim_of_kept h (alignAxis_of_badPreset hs nofun nofun (hbad.1 hb))
    · exact claim_of_kept h ((alignAxis_lost (s := s.withInFlight p rest) hs (hok hb)).trans (if_pos hf))
    · exact claim_of_kept h ((alignAxis_lost (s := s.withInFlight p rest) hs (hok hb)).trans ((if_neg hf).trans (if_pos (hrange.2 hr))))
    · exact claim_of_axisStep h
        ((alignAxis_lost (s := s.withInFlight p rest) hs (hok hb)).trans ((if_neg hf).trans (if_neg fun ho => hr (hrange.1 ho)))) fun r =>
        eventsFor_stateEvents ..

/-- Settles O31: IDLE, LOST and the live states; a live axis is in range after the step or enters LOST(RANGE). -/
theorem encoderStep : Obligations.EncoderStep := by
  intro s ax raw u phase dir counts count x offered outbox broken stepped
  change Host.Outcome.next (s.axisStep ax (u.encoderStep ax s.timebase raw)) = _
  refine congrArg _ ?_
  have hphase : u.phase.step raw = phase := Phase.step_eq raw u.phase
  have hdir : Direction.apply u.config.direction raw = dir := Direction.apply_eq u.config.direction raw
  have hcounts : counted u.config.multiplier u.phase phase = counts := counted_eq ..
  by_cases hi : u.state = .idle
  · rw [if_pos hi, AxisUnit.encoderStep_idle hi, State.axisStep_silent, hphase]
  · rw [if_neg hi, AxisUnit.encoderStep_eq hi, hphase, hdir, hcounts]
    dsimp only
    cases hc : counts with
    | false =>
      have hcount : count = u.count := if_pos hc
      have houtbox : outbox = u.outbox := if_pos hcount
      have hkept : ({ stepped with outbox := outbox } : AxisUnit) = { u with phase := phase, lastStep := some dir } := by
        simp only [stepped, hcount, houtbox]
      have hsilent : stepped = { u with phase := phase, lastStep := some dir } := by simp only [stepped, hcount]
      rw [if_neg Bool.false_ne_true, State.axisStep_silent, hkept, hsilent, if_pos (Or.inl rfl), ite_self]
    | true =>
      have hcount : count = countStep dir u.count := (if_neg (by simp [hc])).trans (countStep_eq dir u.count).symm
      rw [if_pos rfl]
      cases hl : u.state.isLive with
      | false => rw [if_pos rfl, AxisUnit.countedStep_dead (u := { u with phase := phase, lastStep := some dir }) hl, State.axisStep_silent, ← hcount]
      | true =>
        rw [if_neg (by decide : ¬true = false), AxisUnit.countedStep_live (u := { u with phase := phase, lastStep := some dir }) hl, ← hcount]
        have hrange := AxisUnit.inRange_eq_false_iff (AxisUnit.offering count { u with phase := phase, lastStep := some dir })
        by_cases hb : broken
        · rw [hrange.2 hb, if_neg Bool.false_ne_true, if_neg (by simp [hb]), State.axisStep_enterLost]
          rfl
        · rw [eq_true_of_ne_false fun ho => hb (hrange.1 ho), if_pos rfl, if_pos (.inr hb), State.axisStep_silent]
          rfl

/-- Settles O32: each signal fault enters LOST(SIGNAL) from the live states alone. -/
theorem signalFault : Obligations.SignalFault := by
  intro s ax u x faulted
  have hfault (v : AxisUnit) (hst : v.state = u.state) (hx : v.position = u.position) (ho : v.outbox = u.outbox)
      (hsub : v.subscribers = u.subscribers) : s.axisStep ax (v.signalFault ax s.timebase) = faulted v := by
    unfold AxisUnit.signalFault
    simp only [faulted, hst]
    split
    · have hevents : v.lostEvents ax s.timebase .signal = u.lostEvents ax s.timebase .signal := by
        funext q
        rw [AxisUnit.lostEvents, AxisUnit.lostEvents, hst, hx, hsub]
      rw [State.axisStep_enterLost, hx, ho, hevents]
      rfl
    · exact State.axisStep_silent ..
  refine ⟨?_, fun hf => ?_, rfl⟩
  · have hphase := congrArg (fun ph => faulted { u with phase := ph }) (Phase.opposite_eq u.phase)
    exact congrArg _ ((hfault { u with phase := u.phase.opposite } rfl rfl rfl rfl).trans hphase)
  · simp only [exec, execLineFaultRise]
    exact (if_neg (by simp [u, hf])).trans (congrArg _ (hfault _ rfl rfl rfl rfl))

/-- Settles O33: the axis states of R4. -/
theorem indexPulse : Obligations.IndexPulse := by
  intro s ax u x recorded
  change Host.Outcome.next (s.axisStep ax (u.indexPulse ax s.timebase s.triggers)) = _
  refine congrArg _ ?_
  have hrecorded : s.axisStep ax ({ u with lastIndex := some u.count }, []) = recorded := State.axisStep_silent ..
  cases hs : u.state with
  | idle =>
    rw [AxisUnit.indexPulse_idle hs, State.axisStep_silent]
    exact State.setAxis_same rfl
  | free => rw [AxisUnit.indexPulse_free (.inl hs), hrecorded]
  | lost c => rw [AxisUnit.indexPulse_free (.inr ⟨c, hs⟩), hrecorded]
  | armed a =>
    dsimp only
    rw [AxisUnit.indexPulse_armed hs]
    have hq := qualifierMet_eq s.triggers a.qualifier
    have hd := directionMet_eq u.lastStep a.direction
    by_cases hmet : qualifierMet s.triggers a.qualifier = true ∧ directionMet u.lastStep a.direction = true
    · rw [if_pos hmet, AxisUnit.completeAlign, State.axisStep_eq]
      refine Eq.trans ?_ (if_pos ⟨hq.symm.trans hmet.1, hd.symm.trans hmet.2⟩).symm
      have hpos : (u.aligned a).position = a.preset := Int.sub_add_cancel ..
      simp only [eventsFor_cons, eventsFor_stateEvents, hpos]
      rfl
    · rw [if_neg hmet, hrecorded]
      exact (if_neg fun h => hmet ⟨hq.trans h.1, hd.trans h.2⟩).symm
  | aligned =>
    dsimp only
    rw [AxisUnit.indexPulse_aligned hs]
    cases hl : u.lastIndex with
    | none =>
      have hok : u.spacingOk = true := by rw [AxisUnit.spacingOk, hl]
      rw [if_pos hok, hrecorded]
    | some last =>
      have hok := AxisUnit.spacingOk_iff hl
      by_cases hfit : u.config.pitch = 0 ∨ |u.count - last| ≤ u.config.tolerance.val ∨
          |(|u.count - last|) - u.config.pitch.toNat| ≤ u.config.tolerance.val
      · rw [if_pos (hok.2 hfit), hrecorded]
        exact (if_pos hfit).symm
      · have hevents : u.lostEvents ax s.timebase .spacing = fun q =>
            if u.subscribers.get q then [axisEvent .axisState .spacing ax s.timebase (.lost .spacing) x] else [] := by
          funext q
          rw [AxisUnit.lostEvents, hs, List.nil_append]
          rfl
        rw [if_neg fun ho => hfit (hok.1 ho), State.axisStep_enterLost, hevents]
        refine Eq.trans ?_ (if_neg hfit).symm
        rw [← hl]
        rfl

end Sys2Proof.AxisUnits
end

section
/-!
PROOFS. Evaluation of the zone table (03, sections 3.3 and 3.5): samples and notices, zone by zone and port by port.
-/

namespace Sys2Proof.Machine

theorem any_eq_elim {α : Type} (o : Option α) (f : α → Bool) : o.any f = o.elim false f := by
  cases o <;> rfl

/-! ### Zones of an axis -/

theorem Slot.onAxis_eq (ax : Axis) (sl : Slot) : sl.onAxis ax = sl.zone.filter fun zn => zn.axis = ax := by
  unfold Slot.onAxis
  cases sl.zone with
  | none => rfl
  | some zn => by_cases h : zn.axis = ax <;> simp [Option.filter, h]

theorem evaluated_eq (ax : Axis) (f : Evaluation) (zones : Table 32 Slot) :
    evaluated ax f zones = zones.mapIdx fun z sl =>
      (sl.onAxis ax).elim sl fun zn => { sl with zone := some (f z sl.generation zn).1 } :=
  Table.mapIdx_congr fun z => by cases (zones.get z).onAxis ax <;> rfl

theorem eventsFor_evaluationEvents (q : Port) (ax : Axis) (f : Evaluation) (zones : Table 32 Slot) :
    eventsFor q (evaluationEvents ax f zones) = (List.finRange 32).flatMap fun z =>
      ((zones.get z).onAxis ax).elim [] fun zn => eventsFor q (f z (zones.get z).generation zn).2 := by
  rw [evaluationEvents, eventsFor_flatMap]
  refine List.flatMap_congr fun z _ => ?_
  cases (zones.get z).onAxis ax <;> rfl

/-- The live zone of a slot, if it is a zone of the axis. -/
def Slot.live (ax : Axis) (sl : Slot) : Option Zone := sl.zone.filter fun zn => zn.axis = ax ∧ zn.frozen = false

/-- A frozen zone makes what no zone makes. -/
theorem Slot.live_elim {α : Type} (ax : Axis) (sl : Slot) (d : α) (k : Zone → α) :
    (sl.live ax).elim d k = (sl.onAxis ax).elim d fun zn => if zn.frozen then d else k zn := by
  rw [Slot.live, Slot.onAxis_eq]
  cases sl.zone with
  | none => rfl
  | some zn =>
    by_cases hax : zn.axis = ax
    · cases hf : zn.frozen <;> simp [Option.filter, hax, hf]
    · simp [Option.filter, hax]

theorem Slot.zone_of_onAxis {ax : Axis} {sl : Slot} {zn : Zone} (h : sl.onAxis ax = some zn) : sl.zone = some zn := by
  rw [Slot.onAxis_eq] at h
  exact (Option.filter_eq_some_iff.1 h).1

/-- Whether an evaluation changes the membership of the zone of a slot. -/
theorem membershipChanged_evaluated (ax : Axis) (f : Evaluation) (zones : Table 32 Slot) (z : ZoneId) :
    membershipChanged zones (evaluated ax f zones) z =
      ((zones.get z).onAxis ax).elim false fun zn =>
        decide ((f z (zones.get z).generation zn).1.membership ≠ zn.membership) := by
  rw [membershipChanged, evaluated_eq, Table.get_mapIdx]
  cases h : (zones.get z).onAxis ax with
  | none => simp
  | some zn =>
    rw [Slot.zone_of_onAxis h, Option.elim_some, Option.elim_some, Option.map_some, Option.map_some]
    rw [Bool.eq_iff_iff, bne_iff_ne, decide_eq_true_eq, ne_eq, Option.some_inj, eq_comm]

/-- R59, R61–R63: one claim over the zones of an axis, once its message has left the path: the state it leaves. -/
theorem zoneClaim_setView_eq (ax : Axis) (rest : List AxisMsg) (v : View) (f : Evaluation) (touched : ZoneId → Bool)
    (s : State) :
    ((s.withOutbox ax rest).zoneClaim (evaluated ax f s.zones) touched (evaluationEvents ax f s.zones)).setView ax v =
      { s with
        axes := s.axes.put ax { s.axes.get ax with outbox := rest }
        views := s.views.put ax v
        zones := evaluated ax f s.zones
        outputs := recomputed (evaluated ax f s.zones) touched s.outputs
        drivers := s.driven (recomputed (evaluated ax f s.zones) touched s.outputs)
        queues := s.told .zoneController fun q => eventsFor q (evaluationEvents ax f s.zones) } := rfl

/-- R74: the recomputed outputs, for a test of the touched zones that agrees with the model's. -/
theorem recomputed_congr {zones : Table 32 Slot} {touched touched' : ZoneId → Bool} (h : ∀ z, touched z = touched' z)
    (outs : Table 8 Output) :
    recomputed zones touched outs = outs.mapIdx fun _ out =>
      if (members out.map).any touched' then { out with requested := requestedValue zones out } else out := by
  obtain rfl : touched = touched' := funext h
  rfl

/-! ### Samples -/

/-- R57, R58: the judgement of a sample. -/
theorem Zone.judge_eq (zn : Zone) (prev x : Int) :
    zn.judge prev x =
      if zn.membership = .inside then
        (if max (zn.lower - zn.guard.toNat) (-2147483648) ≤ x ∧ x ≤ min (zn.upper + zn.guard.toNat) 2147483646 then
          (.inside, none) else (.outside, some .exit))
      else if zn.lower ≤ x ∧ x ≤ zn.upper then (.inside, some .enter)
      else if (prev < zn.lower ∧ zn.upper < x) ∨ (zn.upper < prev ∧ x < zn.lower) then
        (if max (zn.lower - zn.guard.toNat) (-2147483648) ≤ x ∧ x ≤ min (zn.upper + zn.guard.toNat) 2147483646 then
          (.inside, some .enter) else (.outside, some .pass))
      else (.outside, none) := by
  have hguard : zn.guarded x = true ↔
      max (zn.lower - zn.guard.toNat) (-2147483648) ≤ x ∧ x ≤ min (zn.upper + zn.guard.toNat) 2147483646 := by
    rw [Zone.guarded, Bool.and_eq_true, decide_eq_true_eq, decide_eq_true_eq]
    rfl
  have hcontains : zn.contains x = true ↔ zn.lower ≤ x ∧ x ≤ zn.upper := by
    rw [Zone.contains, Bool.and_eq_true, decide_eq_true_eq, decide_eq_true_eq]
  have hopposite : zn.opposite prev x = true ↔ (prev < zn.lower ∧ zn.upper < x) ∨ (zn.upper < prev ∧ x < zn.lower) := by
    simp only [Zone.opposite, Bool.or_eq_true, Bool.and_eq_true, decide_eq_true_eq]
  unfold Zone.judge
  simp only [← hguard, ← hcontains, ← hopposite]
  cases zn.membership <;> rfl

/-- R57, R59, R70: the state that a sample leaves. -/
theorem takeSample_eq (ax : Axis) (x : Int) (aligned : Bool) (rest : List AxisMsg) (s : State) :
    takeSample ax x aligned (s.withOutbox ax rest) =
      let f := sampleEvaluation (s.views.get ax).last x s.timebase
      let zones := evaluated ax f s.zones
      let outs := recomputed zones (membershipChanged s.zones zones) s.outputs
      { s with
        axes := s.axes.put ax { s.axes.get ax with outbox := rest }
        views := s.views.put ax { s.views.get ax with last := x }
        zones := zones
        outputs := outs
        drivers := s.driven outs
        queues := s.told .zoneController fun q => eventsFor q (evaluationEvents ax f s.zones)
        capture :=
          { s.capture with
            waiting := s.capture.waiting ++ sampleClaims ax (s.views.get ax).last x aligned s.timebase s.zones } } := rfl

/-- R67: a crossing passes both filters. -/
theorem admits_crossing (f : Filter) (c : Crossing) (z : ZoneId) (g : BitVec 16) (m : Membership) (x : Int) (now : Word) :
    admits f (zoneEvent c.kind .crossing z g m x now) = true := by
  cases f <;> cases c <;> rfl

theorem eventsFor_tell_crossing (q : Port) (zn : Zone) (c : Crossing) (z : ZoneId) (g : BitVec 16) (m : Membership)
    (x : Int) (now : Word) :
    eventsFor q (zn.tell (zoneEvent c.kind .crossing z g m x now)) =
      if (zn.subscribers.get q).isSome then [zoneEvent c.kind .crossing z g m x now] else [] := by
  rw [Zone.eventsFor_tell]
  cases zn.subscribers.get q with
  | none => rfl
  | some f => rw [Option.any_some, admits_crossing]; rfl

/-- R59: what a sample makes of a zone of its axis. -/
theorem sampleEvaluation_fst (prev cur : Int) (now : Word) (z : ZoneId) (g : BitVec 16) (zn : Zone) :
    (sampleEvaluation prev cur now z g zn).1 =
      if zn.frozen then zn else { zn with membership := (zn.judge prev cur).1 } := by
  unfold sampleEvaluation
  split <;> rfl

theorem eventsFor_sampleEvaluation (q : Port) (prev cur : Int) (now : Word) (z : ZoneId) (g : BitVec 16) (zn : Zone) :
    eventsFor q (sampleEvaluation prev cur now z g zn).2 =
      if zn.frozen then [] else (zn.judge prev cur).2.elim [] fun c =>
        if (zn.subscribers.get q).isSome then [zoneEvent c.kind .crossing z g (zn.judge prev cur).1 cur now] else [] := by
  unfold sampleEvaluation
  split
  · rfl
  · dsimp only
    cases (zn.judge prev cur).2 with
    | none => rfl
    | some c => exact eventsFor_tell_crossing ..

/-- R70: which crossings the capture flags of a zone select. -/
theorem captures_iff (f : CaptureFlags) (c : Crossing) :
    captures f c = true ↔ f = .both ∨ (f = .enter ∧ c ≠ .exit) ∨ (f = .exit ∧ c ≠ .enter) := by
  cases f <;> cases c <;> simp [captures]

theorem sampleClaims_eq (ax : Axis) (prev cur : Int) (aligned : Bool) (now : Word) (zones : Table 32 Slot) :
    sampleClaims ax prev cur aligned now zones = (List.finRange 32).flatMap fun z =>
      ((zones.get z).live ax).elim [] fun zn => (zn.judge prev cur).2.elim [] fun c =>
        if zn.capture = .both ∨ (zn.capture = .enter ∧ c ≠ .exit) ∨ (zn.capture = .exit ∧ c ≠ .enter) then
          [⟨z, (zones.get z).generation, c, ax, cur, aligned, now⟩]
        else [] := by
  rw [sampleClaims]
  refine List.flatMap_congr fun z _ => ?_
  rw [Slot.live_elim]
  cases (zones.get z).onAxis ax with
  | none => rfl
  | some zn =>
    simp only [Option.elim_some, ← captures_iff]
    split
    · rfl
    · cases (zn.judge prev cur).2 <;> rfl

end Sys2Proof.Machine

namespace Sys2Proof.Evaluations

open Machine

/-- Settles O35: zone by zone, the judgement; then the outputs, the events and the capture claims that follow from it. -/
theorem sample : Obligations.Sample := by
  intro s ax x aligned rest hout prev live judge zones outs
  have hjudge (zn : Zone) : zn.judge prev x = judge zn := Zone.judge_eq zn prev x
  have hexec : exec (.sample ax) s = .next (takeSample ax x aligned (s.withOutbox ax rest)) := by
    simp only [exec, execSample, hout]
  have hzones : evaluated ax (sampleEvaluation prev x s.timebase) s.zones = zones := by
    rw [evaluated_eq]
    refine Table.mapIdx_congr fun z => Eq.trans ?_ (Slot.live_elim ax (s.zones.get z) _ _).symm
    cases hz : (s.zones.get z).onAxis ax with
    | none => rfl
    | some zn =>
      rw [Option.elim_some, Option.elim_some, sampleEvaluation_fst, hjudge]
      split
      · rw [← Slot.zone_of_onAxis hz]
      · rfl
  have htouched (z : ZoneId) :
      membershipChanged s.zones zones z = (live z).any fun zn => (judge zn).1 ≠ zn.membership := by
    rw [← hzones, membershipChanged_evaluated]
    refine Eq.trans ?_ ((any_eq_elim ..).trans (Slot.live_elim ax (s.zones.get z) _ _)).symm
    refine congrArg _ (funext fun zn => ?_)
    rw [sampleEvaluation_fst, hjudge]
    split
    · simp
    · rfl
  have hevents (q : Port) :
      eventsFor q (evaluationEvents ax (sampleEvaluation prev x s.timebase) s.zones) =
        (List.finRange 32).flatMap fun z => (live z).elim [] fun zn => (judge zn).2.elim [] fun c =>
          if (zn.subscribers.get q).isSome then
            [zoneEvent c.kind .crossing z (s.zones.get z).generation (judge zn).1 x s.timebase]
          else [] := by
    rw [eventsFor_evaluationEvents]
    refine List.flatMap_congr fun z _ => Eq.trans ?_ (Slot.live_elim ax (s.zones.get z) _ _).symm
    exact congrArg _ (funext fun zn => by rw [eventsFor_sampleEvaluation, hjudge])
  have hclaims := sampleClaims_eq ax prev x aligned s.timebase s.zones
  simp only [hjudge] at hclaims
  rw [hexec, takeSample_eq]
  dsimp only
  rw [hzones, recomputed_congr htouched, funext hevents, hclaims]
  rfl

end Sys2Proof.Evaluations
end

section
/-!
PROOFS. The notices of an axis (R60–R63): rebase, freeze and thaw, each one evaluation of the zones of its axis.
-/

namespace Sys2Proof.Machine

/-- R60: a fresh evaluation. -/
theorem Zone.fresh_eq (zn : Zone) (x : Int) : zn.fresh x = if zn.lower ≤ x ∧ x ≤ zn.upper then .inside else .outside := by
  simp only [Zone.fresh, Zone.contains, Bool.and_eq_true, decide_eq_true_eq]

/-- R67: the filter CROSSINGS lets no turn of a zone pass whose cause is another than CROSSING. -/
theorem admits_turn {cause : Cause} (hc : cause ≠ .crossing) (f : Filter) (inside : Prop) [Decidable inside] (z : ZoneId)
    (g : BitVec 16) (m : Membership) (x : Int) (now : Word) :
    admits f (zoneEvent (if inside then .zoneEnter else .zoneExit) cause z g m x now) = decide (f = .all) := by
  cases f with
  | all => rfl
  | crossings => by_cases h : inside <;> simp [h, admits, zoneEvent, hc]

theorem eventsFor_membershipEvents (q : Port) {cause : Cause} (hc : cause ≠ .crossing) (zn : Zone) (z : ZoneId)
    (g : BitVec 16) (m : Membership) (x : Int) (now : Word) :
    eventsFor q (zn.membershipEvents z g m cause x now) =
      if m ≠ zn.membership ∧ zn.subscribers.get q = some .all then
        [zoneEvent (if m = .inside then .zoneEnter else .zoneExit) cause z g m x now]
      else [] := by
  unfold Zone.membershipEvents
  by_cases hm : m = zn.membership
  · rw [if_pos hm, if_neg fun h => h.1 hm]
    rfl
  · rw [if_neg hm, Zone.eventsFor_tell]
    simp only [admits_turn hc]
    refine if_congr ?_ rfl rfl
    cases zn.subscribers.get q <;> simp [hm]

/-- R62, R63: ZONE_FROZEN and ZONE_THAWED pass both filters. -/
theorem eventsFor_tell_all (q : Port) (zn : Zone) {e : Event} (h : ∀ f, admits f e = true) :
    eventsFor q (zn.tell e) = if (zn.subscribers.get q).isSome then [e] else [] := by
  rw [Zone.eventsFor_tell]
  cases zn.subscribers.get q with
  | none => rfl
  | some f => rw [Option.any_some, h]; rfl

theorem admits_zoneFrozen (f : Filter) (cause : Cause) (z : ZoneId) (g : BitVec 16) (m : Membership) (x : Int) (now : Word) :
    admits f (zoneEvent .zoneFrozen cause z g m x now) = true := by cases f <;> rfl

theorem admits_zoneThawed (f : Filter) (cause : Cause) (z : ZoneId) (g : BitVec 16) (m : Membership) (x : Int) (now : Word) :
    admits f (zoneEvent .zoneThawed cause z g m x now) = true := by cases f <;> rfl

theorem RebaseCause.cause_ne_crossing (c : RebaseCause) : c.cause ≠ .crossing := by cases c <;> nofun

theorem ThawCause.cause_ne_crossing (c : ThawCause) : c.cause ≠ .crossing := by cases c <;> nofun

end Sys2Proof.Machine

namespace Sys2Proof.Evaluations

open Machine

/-- Settles O36: each notice evaluates the zones of its axis; what it makes of a zone, which zones it touches and what it tells
of them are given zone by zone. -/
theorem notices : Obligations.Notices := by
  intro s ax x rest onAxis afresh turned after claimed
  have hon (z : ZoneId) : (s.zones.get z).onAxis ax = onAxis z := Slot.onAxis_eq ..
  have hfresh (zn : Zone) : zn.fresh x = afresh zn := zn.fresh_eq x
  have hclaimed (v : View) (f : Evaluation) (t : ZoneId → Bool) (change : Zone → Zone) (touched : Zone → Bool)
      (es : ZoneId → Zone → Port → List Event) (hf : ∀ z g zn, (f z g zn).1 = change zn)
      (ht : ∀ z, t z = (onAxis z).any touched)
      (he : ∀ z zn q, eventsFor q (f z (s.zones.get z).generation zn).2 = es z zn q) :
      ((s.withOutbox ax rest).zoneClaim (evaluated ax f s.zones) t (evaluationEvents ax f s.zones)).setView ax v =
        claimed v (after change) touched es := by
    have hzones : evaluated ax f s.zones = after change := by
      rw [evaluated_eq]
      exact Table.mapIdx_congr fun z => by simp only [hf, hon]
    have hevents (q : Port) : eventsFor q (evaluationEvents ax f s.zones) =
        (List.finRange 32).flatMap fun z => (onAxis z).elim [] fun zn => es z zn q := by
      simp only [eventsFor_evaluationEvents, hon, he]
    rw [zoneClaim_setView_eq, hzones, recomputed_congr ht, funext hevents]
  have hsome (z : ZoneId) : ((s.zones.get z).onAxis ax).isSome = (onAxis z).any fun _ => true := by
    rw [hon]
    cases onAxis z <;> rfl
  refine ⟨fun c hout => ?_, fun c hout => ?_, fun c hout => ?_⟩
  · have hexec : exec (.rebaseNotice ax) s = .next (takeRebase ax x c (s.withOutbox ax rest)) := by
      simp only [exec, execRebaseNotice, hout]
    have hfst (z : ZoneId) (g : BitVec 16) (zn : Zone) : (rebaseEvaluation (s.views.get ax).last x c s.timebase z g zn).1 =
        { zn with membership := if zn.frozen ∨ x = (s.views.get ax).last then zn.membership else afresh zn } := by
      rw [rebaseEvaluation, ← hfresh]
      split <;> rfl
    rw [hexec]
    refine congrArg _ (hclaimed _ _ _ _ _ _ hfst (fun z => ?_) fun z zn q => ?_)
    · refine (membershipChanged_evaluated ..).trans ?_
      rw [any_eq_elim, ← hon]
      refine congrArg _ (funext fun zn => ?_)
      rw [← hfresh]
      refine (congrArg (fun zn' : Zone => decide (zn'.membership ≠ zn.membership)) (hfst ..)).trans ?_
      rw [← hfresh]
      by_cases hz : zn.frozen = true <;> by_cases hx : x = (s.views.get ax).last <;> simp [hz, hx]
    · rw [rebaseEvaluation]
      split
      · next h => exact (if_pos h).symm
      · next h =>
        refine Eq.trans ?_ (if_neg h).symm
        rw [hfresh]
        exact eventsFor_membershipEvents q c.cause_ne_crossing ..
  · have hexec : exec (.freezeNotice ax) s = .next (takeFreeze ax x c (s.withOutbox ax rest)) := by
      simp only [exec, execFreezeNotice, hout]
    rw [hexec]
    exact congrArg _ (hclaimed _ _ _ _ _ _ (fun _ _ _ => rfl) hsome fun z zn q =>
      eventsFor_tell_all q zn fun f => admits_zoneFrozen ..)
  · have hexec : exec (.thawNotice ax) s = .next (takeThaw ax x c (s.withOutbox ax rest)) := by
      simp only [exec, execThawNotice, hout]
    rw [hexec]
    refine congrArg _ (hclaimed _ _ _ _ _ _ (fun z g zn => ?_) hsome fun z zn q => ?_)
    · rw [thawEvaluation, hfresh]
    · rw [thawEvaluation, hfresh, eventsFor_append, eventsFor_membershipEvents q c.cause_ne_crossing,
        eventsFor_tell_all q zn fun f => admits_zoneThawed ..]
      rfl

end Sys2Proof.Evaluations
end

section
/-!
PROOFS. The requests of the zone table (03, sections 3.2 and 3.4): DEFINE ZONE (R46, R47) and MODIFY ZONE (R48–R50). Each
request's work has one equation per case of its rule.
-/

namespace Sys2Proof.Machine

/-! ### The tests -/

theorem badBounds_iff (lower upper : Int) : badBounds lower upper = true ↔ upper < lower ∨ 2147483646 < upper := by
  rw [badBounds, Bool.or_eq_true, decide_eq_true_eq, decide_eq_true_eq]
  rfl

theorem authored_eq (zones : Table 32 Slot) (p : Port) :
    authored zones p = (List.finRange 32).filter fun z => ((zones.get z).zone.map Zone.author) = some p := by
  refine List.filter_congr fun z _ => ?_
  dsimp only
  cases (zones.get z).zone with
  | none => rfl
  | some zn => simp

theorem lowestEmpty_eq_find? (zones : Table 32 Slot) : lowestEmpty zones = Fin.find? fun z => (zones.get z).zone.isNone := by
  rw [lowestEmpty, Table.having, List.head?_filter, Fin.find?_eq_find?_finRange]

/-- R46: no slot is EMPTY. -/
theorem lowestEmpty_eq_none {zones : Table 32 Slot} (h : ∀ z, (zones.get z).zone ≠ none) : lowestEmpty zones = none := by
  rw [lowestEmpty_eq_find?, Fin.find?_eq_none_iff]
  exact fun z => Bool.eq_false_iff.2 fun hz => h z (Option.isNone_iff_eq_none.1 hz)

theorem lowestEmpty_eq_some {zones : Table 32 Slot} {z : ZoneId} (hz : (zones.get z).zone = none)
    (hlow : ∀ y < z, (zones.get y).zone ≠ none) : lowestEmpty zones = some z := by
  rw [lowestEmpty_eq_find?, Fin.find?_eq_some_iff]
  exact ⟨Option.isNone_iff_eq_none.2 hz, fun y hy =>
    Bool.eq_false_iff.2 fun hn => hlow y hy (Option.isNone_iff_eq_none.1 hn)⟩

/-! ### The work of DEFINE ZONE, one equation per case of R46 -/

section

variable {s : State} {p : Port} {ax : Axis} {lower upper : Int} {guard : BitVec 16} {capture : CaptureFlags}
  {choice : Option Filter} {z : ZoneId}

theorem defineZone_of_full (hz : lowestEmpty s.zones = none) :
    defineZone p ax lower upper guard capture choice s = (s, .refuse .tableFull) := by
  simp only [defineZone, hz]

theorem defineZone_of_limit (hz : lowestEmpty s.zones = some z) (hl : 16 ≤ (authored s.zones p).length) :
    defineZone p ax lower upper guard capture choice s = (s, .refuse .authorLimit) := by
  simp only [defineZone, hz]
  exact if_pos hl

theorem defineZone_of_badBounds (hz : lowestEmpty s.zones = some z) (hl : ¬16 ≤ (authored s.zones p).length)
    (hb : badBounds lower upper = true) :
    defineZone p ax lower upper guard capture choice s = (s, .refuse .badArgument) := by
  simp only [defineZone, hz]
  exact (if_neg hl).trans (if_pos hb)

theorem defineZone_accepted (hz : lowestEmpty s.zones = some z) (hl : ¬16 ≤ (authored s.zones p).length)
    (hb : ¬badBounds lower upper = true) :
    let zn := newZone p (s.views.get ax) ax lower upper guard capture choice
    let g := (s.zones.get z).generation + 1
    defineZone p ax lower upper guard capture choice s =
      (s.setSlot z { generation := g, zone := some zn }, .ok (finCode z :: le16 g ++ [zn.membership.code, boolCode zn.frozen])) := by
  simp only [defineZone, hz]
  exact (if_neg hl).trans (if_neg hb)

/-- R46, R47: the zone that DEFINE ZONE makes. -/
theorem newZone_eq (p : Port) (v : View) (ax : Axis) (lower upper : Int) (guard : BitVec 16) (capture : CaptureFlags)
    (choice : Option Filter) :
    newZone p v ax lower upper guard capture choice =
      { axis := ax, lower := lower, upper := upper, guard := guard, capture := capture, author := p,
        membership := if v.liveness = .live ∧ lower ≤ v.last ∧ v.last ≤ upper then .inside else .outside
        frozen := decide (v.liveness ≠ .live), subscribers := (Table.all 4 none).put p choice } := by
  unfold newZone
  have hfrozen : (v.liveness != .live) = decide (v.liveness ≠ .live) := by
    rw [Bool.eq_iff_iff, bne_iff_ne, decide_eq_true_eq]
  simp only [Zone.fresh_eq, hfrozen, ite_and]

end

/-! ### The work of MODIFY ZONE, one equation per case of R48 -/

section

variable {s : State} {p : Port} {z : ZoneId} {g : BitVec 16} {lower upper : Int} {guard : BitVec 16} {capture : CaptureFlags}
  {zn : Zone}

theorem modifyZone_of_empty (hz : (s.zones.get z).zone = none) :
    modifyZone p z g lower upper guard capture s = (s, .refuse .noSuchZone) := by
  simp only [modifyZone, hz]

theorem modifyZone_of_other (hz : (s.zones.get z).zone = some zn) (ha : zn.author ≠ p) :
    modifyZone p z g lower upper guard capture s = (s, .refuse .notAuthor) := by
  simp only [modifyZone, hz]
  exact if_pos ha

theorem modifyZone_of_stale (hz : (s.zones.get z).zone = some zn) (ha : ¬zn.author ≠ p)
    (hg : g ≠ (s.zones.get z).generation) :
    modifyZone p z g lower upper guard capture s = (s, ⟨.generationMismatch, le16 (s.zones.get z).generation⟩) := by
  simp only [modifyZone, hz]
  exact (if_neg ha).trans (if_pos hg)

theorem modifyZone_of_badBounds (hz : (s.zones.get z).zone = some zn) (ha : ¬zn.author ≠ p)
    (hg : ¬g ≠ (s.zones.get z).generation) (hb : badBounds lower upper = true) :
    modifyZone p z g lower upper guard capture s = (s, .refuse .badArgument) := by
  simp only [modifyZone, hz]
  exact (if_neg ha).trans ((if_neg hg).trans (if_pos hb))

theorem modifyZone_of_used {o : Line} (hz : (s.zones.get z).zone = some zn) (ha : ¬zn.author ≠ p)
    (hg : ¬g ≠ (s.zones.get z).generation) (hb : ¬badBounds lower upper = true) (hu : firstUser s.outputs p z = some o) :
    modifyZone p z g lower upper guard capture s = (s, zoneInUse s.outputs o) := by
  simp only [modifyZone, hz, hu]
  exact (if_neg ha).trans ((if_neg hg).trans (if_neg hb))

theorem modifyZone_accepted (hz : (s.zones.get z).zone = some zn) (ha : ¬zn.author ≠ p)
    (hg : ¬g ≠ (s.zones.get z).generation) (hb : ¬badBounds lower upper = true) (hu : firstUser s.outputs p z = none) :
    let g' := (s.zones.get z).generation + 1
    let last := (s.views.get zn.axis).last
    let zn' := modifiedZone last lower upper guard capture zn
    let zones := s.zones.put z { generation := g', zone := some zn' }
    modifyZone p z g lower upper guard capture s =
      (s.zoneClaim zones (membershipChanged s.zones zones)
          (changedEvents zn' z g' last s.timebase ++ zn.membershipEvents z g' zn'.membership .edit last s.timebase),
        .ok (le16 g' ++ [zn'.membership.code, boolCode zn'.frozen])) := by
  simp only [modifyZone, hz, hu]
  exact (if_neg ha).trans ((if_neg hg).trans (if_neg hb))

/-- R49: the zone that MODIFY ZONE makes. -/
theorem modifiedZone_eq (last lower upper : Int) (guard : BitVec 16) (capture : CaptureFlags) (zn : Zone) :
    modifiedZone last lower upper guard capture zn =
      { zn with
        lower := lower, upper := upper, guard := guard, capture := capture
        membership := if zn.frozen then zn.membership else if lower ≤ last ∧ last ≤ upper then .inside else .outside } := by
  unfold modifiedZone
  simp only [Zone.fresh_eq]

theorem eventsFor_changedEvents (q : Port) (zn : Zone) (z : ZoneId) (g : BitVec 16) (last : Int) (now : Word) :
    eventsFor q (changedEvents zn z g last now) =
      if (zn.subscribers.get q).isSome ∧ q ≠ zn.author then [zoneEvent .zoneChanged .edit z g zn.membership last now] else [] := by
  rw [changedEvents, eventsFor_filter q (fun r => r ≠ zn.author), eventsFor_tell_all q zn fun f => by cases f <;> rfl,
    ← ite_and]
  simp only [decide_eq_true_eq, and_comm]

/-- R49, R74: an output is recomputed when its map holds the one zone stored, and that zone's membership changed. -/
theorem recomputed_put {zones : Table 32 Slot} (hz : (zones.get z).zone = some zn) (g : BitVec 16) (zn' : Zone)
    (outs : Table 8 Output) :
    let zones' := zones.put z { generation := g, zone := some zn' }
    recomputed zones' (membershipChanged zones zones') outs = outs.mapIdx fun _ out =>
      if zn'.membership ≠ zn.membership ∧ out.map.getLsbD z.val then
        { out with requested := requestedValue zones' out } else out := by
  intro zones'
  have hchanged (y : ZoneId) : membershipChanged zones zones' y = true ↔ y = z ∧ zn'.membership ≠ zn.membership := by
    unfold membershipChanged
    by_cases hy : y = z
    · subst hy
      rw [hz, Table.get_put_self, bne_iff_ne, Option.map_some, Option.map_some, ne_eq, Option.some_inj]
      exact ⟨fun hne => ⟨rfl, fun heq => hne heq.symm⟩, fun hne heq => hne.2 heq.symm⟩
    · rw [Table.get_put_other zones (Ne.symm hy), bne_self_eq_false]
      exact ⟨nofun, fun hyz => absurd hyz.1 hy⟩
  refine Table.mapIdx_congr fun o => if_congr ?_ rfl rfl
  rw [List.any_eq_true]
  simp only [mem_members, hchanged]
  exact ⟨fun ⟨y, hmap, hy, hm⟩ => ⟨hm, hy ▸ hmap⟩, fun ⟨hm, hmap⟩ => ⟨z, hmap, rfl, hm⟩⟩

end

end Sys2Proof.Machine

namespace Sys2Proof.ZoneTable

open Machine

/-- Settles O37: the tests of R46 in their order; past them the slot takes the zone of `newZone_eq`. -/
theorem defineZone : Obligations.DefineZone := by
  intro s p ax lower upper guard capture choice aw rest h run v own
  have hrun : run = claim p (.defineZone ax lower upper guard capture choice)
    (Machine.defineZone p ax lower upper guard capture choice) s := rfl
  have hown : (authored s.zones p).length = own := congrArg List.length (authored_eq s.zones p)
  rw [hrun]
  refine ⟨fun hfull => claim_of_kept h (defineZone_of_full (lowestEmpty_eq_none hfull)), fun z hz hlow => ?_⟩
  have hlowest : lowestEmpty s.zones = some z := lowestEmpty_eq_some hz hlow
  by_cases hl : 16 ≤ own
  · rw [if_pos hl]
    exact claim_of_kept h (defineZone_of_limit hlowest (hown ▸ hl))
  rw [if_neg hl]
  rw [← hown] at hl
  by_cases hb : badBounds lower upper = true
  · rw [if_pos ((badBounds_iff ..).1 hb)]
    exact claim_of_kept h (defineZone_of_badBounds hlowest hl hb)
  · rw [if_neg fun hb' => hb ((badBounds_iff ..).2 hb')]
    refine (claim_of_setSlot h (defineZone_accepted hlowest hl hb)).trans ?_
    rw [newZone_eq]
    rfl

/-- Settles O38: the tests of R48 in their order; past them one claim stores the zone of `modifiedZone_eq`. -/
theorem modifyZone : Obligations.ModifyZone := by
  intro s p z generation lower upper guard capture aw rest h sl run inUse
  have hrun : run = claim p (.modifyZone z generation lower upper guard capture)
    (Machine.modifyZone p z generation lower upper guard capture) s := rfl
  rw [hrun]
  refine ⟨fun hz => claim_of_kept h (modifyZone_of_empty hz), ?_⟩
  intro zn hz x m g zones outs
  by_cases ha : zn.author ≠ p
  · rw [if_pos ha]
    exact claim_of_kept h (modifyZone_of_other hz ha)
  rw [if_neg ha]
  by_cases hg : generation ≠ sl.generation
  · rw [if_pos hg]
    exact claim_of_kept h (modifyZone_of_stale hz ha hg)
  rw [if_neg hg]
  by_cases hb : badBounds lower upper = true
  · rw [if_pos ((badBounds_iff ..).1 hb)]
    exact claim_of_kept h (modifyZone_of_badBounds hz ha hg hb)
  rw [if_neg fun hb' => hb ((badBounds_iff ..).2 hb')]
  have hfirst : firstUser s.outputs p z = (List.finRange 8).find? inUse := firstUser_eq_find? s.outputs p z
  cases hu : (List.finRange 8).find? inUse with
  | some o => exact claim_of_kept h (modifyZone_of_used hz ha hg hb (hfirst.trans hu))
  | none =>
    have hwork := modifyZone_accepted (s := s.withInFlight p rest) (guard := guard) (capture := capture) hz ha hg hb
      (hfirst.trans hu)
    simp only [modifiedZone_eq] at hwork
    refine claim_of_commitZones h hwork (recomputed_put hz g _ s.outputs) fun q => ?_
    rw [eventsFor_append, eventsFor_changedEvents, eventsFor_membershipEvents q (by decide)]
    rfl

end Sys2Proof.ZoneTable
end

section
/-!
PROOFS. The requests that read (R17, R53, R54, R89, R104): their work changes nothing, and answers what the tables hold.
-/

namespace Sys2Proof.Machine

/-! ### The answers -/

/-- R17: one axis of READ AXES. -/
theorem AxisUnit.readEntry_eq (u : AxisUnit) :
    u.readEntry =
      [u.state.tag.code, u.state.tag.causeCode] ++ signedBytes (u.count + u.offset) ++ signedBytes u.count ++
        signedBytes u.offset ++ signedBytes (u.lastIndex.getD 0) ++
        [BitVec.ofNat 8 ((if u.lastIndex.isSome then 1 else 0) + (if u.lineFault then 2 else 0)),
          match u.state with
          | .armed a => finCode a.aligner
          | _ => 0xFF] := by
  unfold AxisUnit.readEntry
  cases u.state <;> rfl

/-- R164: an absent port field. -/
theorem optPortCode_map {α : Type} (o : Option α) (f : α → Port) :
    optPortCode (o.map f) = (o.map fun x => finCode (f x)).getD 0xFF := by
  cases o <;> rfl

/-- R89: one line of READ OUTPUTS. -/
theorem outputEntry_eq (out : Output) (d : Driver) :
    outputEntry out d =
      [boolCode d.pin, boolCode out.requested, out.force.code, out.policy.code, boolCode out.hold,
          (out.lease.map fun l => finCode l.holder).getD 0xFF] ++
        durationBytes ((out.lease.map Lease.duration).getD 0) ++ durationBytes ((out.lease.map Lease.timer).getD 0) ++
        [BitVec.ofNat 8 out.waiters.length] ++ le32 out.map := by
  rw [outputEntry, optPortCode_map]
  rfl

/-- R53: the entry of one port in the subscriber list of READ ZONE. -/
def subscriberEntry (zn : Zone) (q : Port) : List Byte := (zn.subscribers.get q).elim [] fun f => [finCode q, f.code]

theorem length_flatMap_subscriberEntry (zn : Zone) (qs : List Port) :
    (qs.flatMap (subscriberEntry zn)).length = 2 * (qs.filter fun q => (zn.subscribers.get q).isSome).length := by
  induction qs with
  | nil => rfl
  | cons q qs ih =>
    rw [List.flatMap_cons, List.length_append, ih, subscriberEntry, List.filter_cons]
    cases zn.subscribers.get q with
    | none => simp
    | some f => simp; omega

/-- R53: the answer of READ ZONE. -/
theorem readZoneBytes_eq (z : ZoneId) (g : BitVec 16) (v : View) (zn : Zone) :
    readZoneBytes z g v zn =
      [finCode z] ++ le16 g ++ [finCode zn.axis] ++ signedBytes zn.lower ++ signedBytes zn.upper ++ le16 zn.guard ++
        [zn.capture.code, finCode zn.author, zn.membership.code, boolCode zn.frozen,
          if zn.frozen then v.liveness.code else 0] ++
        signedBytes v.last ++
        [BitVec.ofNat 8 ((List.finRange 4).filter fun q => (zn.subscribers.get q).isSome).length] ++
        subscriberEntry zn 0 ++ subscriberEntry zn 1 ++ subscriberEntry zn 2 ++ subscriberEntry zn 3 := by
  have hsubs : ((List.finRange 4).flatMap fun p => match zn.subscribers.get p with
      | some f => [finCode p, f.code]
      | none => []) = (List.finRange 4).flatMap (subscriberEntry zn) := by
    refine List.flatMap_congr fun q _ => ?_
    unfold subscriberEntry
    cases zn.subscribers.get q <;> rfl
  have hall : (List.finRange 4).flatMap (subscriberEntry zn) =
      subscriberEntry zn 0 ++ subscriberEntry zn 1 ++ subscriberEntry zn 2 ++ subscriberEntry zn 3 := by
    simp [List.finRange_succ]
  have hcount := length_flatMap_subscriberEntry zn (List.finRange 4)
  refine (congrArg (fun subs : List Byte => finCode z :: le16 g ++ [finCode zn.axis] ++ signedBytes zn.lower ++
    signedBytes zn.upper ++ le16 zn.guard ++ [zn.capture.code, finCode zn.author, zn.membership.code, boolCode zn.frozen,
      if zn.frozen then v.liveness.code else 0] ++ signedBytes v.last ++ [byteOf (subs.length / 2)] ++ subs) hsubs).trans ?_
  rw [hcount, Nat.mul_div_cancel_left _ (by decide : 0 < 2), hall]
  simp only [List.append_assoc]
  rfl

/-- R54: one zone of LIST ZONES. -/
theorem listEntry_eq (z : ZoneId) (sl : Slot) :
    listEntry z sl = sl.zone.elim [] fun zn =>
      [finCode z, finCode zn.axis, finCode zn.author] ++ le16 sl.generation ++
        [(0 : BitVec 6) ++ BitVec.ofBool zn.frozen ++ BitVec.ofBool (zn.membership = .inside)] := by
  have hcode (m : Membership) (b : Bool) :
      m.code ||| (boolCode b <<< 1) = (0 : BitVec 6) ++ BitVec.ofBool b ++ BitVec.ofBool (m = .inside) := by
    cases m <;> cases b <;> decide
  unfold listEntry
  cases sl.zone with
  | none => rfl
  | some zn => simp only [hcode]; rfl

theorem definedFrom_eq (zones : Table 32 Slot) (start : ZoneId) :
    definedFrom zones start = (List.finRange 32).filter fun z => (zones.get z).zone.isSome ∧ start ≤ z := by
  rw [definedFrom, Table.having, List.filter_filter]
  refine List.filter_congr fun z _ => ?_
  rw [Bool.and_comm, Bool.decide_and, Bool.decide_eq_true]

/-! ### The work -/

theorem readZone_of_empty {s : State} {z : ZoneId} (hz : (s.zones.get z).zone = none) :
    readZone z s = (s, ⟨.noSuchZone, le16 (s.zones.get z).generation⟩) := by
  simp only [readZone, hz]

theorem readZone_of_some {s : State} {z : ZoneId} {zn : Zone} (hz : (s.zones.get z).zone = some zn) :
    readZone z s = (s, .ok (readZoneBytes z (s.zones.get z).generation (s.views.get zn.axis) zn)) := by
  simp only [readZone, hz]

theorem listZones_eq (start : ZoneId) (s : State) :
    let ids := (List.finRange 32).filter fun z => (s.zones.get z).zone.isSome ∧ start ≤ z
    let shown := ids.take 16
    listZones start s =
      (s, .ok ([BitVec.ofNat 8 shown.length, ((ids.drop 16).head?.map finCode).getD 0xFF] ++ shown.flatMap fun z =>
        (s.zones.get z).zone.elim [] fun zn =>
          [finCode z, finCode zn.axis, finCode zn.author] ++ le16 (s.zones.get z).generation ++
            [(0 : BitVec 6) ++ BitVec.ofBool zn.frozen ++ BitVec.ofBool (zn.membership = .inside)])) := by
  simp only [listZones, definedFrom_eq, listEntry_eq, show Config.listZonesMax = 16 from rfl]
  generalize (List.finRange 32).filter _ = ids
  cases (ids.drop 16).head? <;> rfl

theorem fetchEvents_of_bad {s : State} {p : Port} {n : Byte} (hn : n = 0 ∨ 8 < n.toNat) :
    fetchEvents p n s = (s, .refuse .badArgument) :=
  if_pos (hn.imp_left (congrArg BitVec.toNat))

theorem fetchEvents_of_good {s : State} {p : Port} {n : Byte} (hn : ¬(n = 0 ∨ 8 < n.toNat)) :
    let held := (s.queues.get p).records
    fetchEvents p n s =
      (s, .ok ([BitVec.ofNat 8 held.length, BitVec.ofNat 8 (min n.toNat held.length)] ++
        (held.take n.toNat).flatMap EventRecord.bytes)) := by
  intro held
  refine (if_neg fun h => hn (h.imp_left BitVec.eq_of_toNat_eq)).trans ?_
  rw [← List.length_take]
  rfl

end Sys2Proof.Machine

namespace Sys2Proof.Reads

open Machine

/-- Settles O40: the five requests one by one, each by the equation of its answer. -/
theorem readRequests : Obligations.ReadRequests := by
  intro s p aw rest
  refine ⟨fun h => ?_, fun z h => ?_, fun start h => ?_, fun h => ?_, fun n h => ?_⟩
  · refine claim_of_kept (work := readAxes) h ?_
    unfold readAxes
    simp only [AxisUnit.readEntry_eq]
    rfl
  · change claim p (.readZone z) (readZone z) s = _
    cases hz : (s.zones.get z).zone with
    | none => exact claim_of_kept h (readZone_of_empty hz)
    | some zn =>
      refine (claim_of_kept h (readZone_of_some hz)).trans ?_
      rw [readZoneBytes_eq]
      rfl
  · exact claim_of_kept (work := listZones start) h (listZones_eq start _)
  · refine claim_of_kept (work := readOutputs) h ?_
    unfold readOutputs
    rw [List.append_assoc]
    simp only [outputEntry_eq]
    rfl
  · change claim p (.fetchEvents n) (fetchEvents p n) s = _
    by_cases hn : n = 0 ∨ 8 < n.toNat
    · exact (claim_of_kept h (fetchEvents_of_bad hn)).trans (congrArg _ (if_pos hn).symm)
    · exact (claim_of_kept h (fetchEvents_of_good hn)).trans (congrArg _ (if_neg hn).symm)

end Sys2Proof.Reads
end

section
/-!
PROOFS. Output lines and leases of 04: CLAIM OUTPUT (R78), the holder's requests (R86–R88), lease ticks and expiry (R77, R83),
and OHOLD (R76).
-/

namespace Sys2Proof.Machine

/-! ### Wait queues -/

/-- R78: the place of a port in a wait queue. -/
theorem placeOf_eq (p : Port) (ws : List Waiter) :
    placeOf p ws =
      if p ∈ ws.map Waiter.port then some ((ws.takeWhile fun w => w.port ≠ p).length + 1) else none := by
  induction ws with
  | nil => rfl
  | cons w ws ih =>
    unfold placeOf at ih ⊢
    by_cases hw : w.port = p
    · simp [List.findIdx?_cons, hw]
    · rw [List.findIdx?_cons, decide_eq_false hw, if_neg Bool.false_ne_true, Option.map_map,
        show (fun i => i + 1) ∘ (fun i => i + 1) = (fun k => k + 1) ∘ fun i : Nat => i + 1 from rfl, ← Option.map_map, ih]
      have hp : ¬p = w.port := Ne.symm hw
      by_cases hmem : p ∈ ws.map Waiter.port <;> simp [hmem, hp, hw]

/-! ### The work of CLAIM OUTPUT, one equation per case of R78 -/

section

variable {s : State} {p : Port} {o : Line} {duration : BitVec 16} {wait : Bool} {l : Lease}

theorem claimOutput_of_badDuration (hd : duration.toNat < 10 ∨ 10000 < duration.toNat) :
    claimOutput p o duration wait s = (s, .refuse .badArgument) := by
  simp [claimOutput, (durationOk_eq_false_iff _).2 hd]

theorem durationOk_of_not (hd : ¬(duration.toNat < 10 ∨ 10000 < duration.toNat)) : durationOk duration.toNat = true :=
  eq_true_of_ne_false fun h => hd ((durationOk_eq_false_iff _).1 h)

theorem claimOutput_of_unheld (hd : durationOk duration.toNat = true) (hl : (s.outputs.get o).lease = none) :
    claimOutput p o duration wait s =
      (s.keepOutput o { s.outputs.get o with lease := some (newLease p duration.toNat) },
        .ok (durationBytes duration.toNat)) := by
  simp [claimOutput, hd, hl]

theorem claimOutput_of_holder (hd : durationOk duration.toNat = true) (hl : (s.outputs.get o).lease = some l)
    (hp : l.holder = p) : claimOutput p o duration wait s = (s, .refuse .alreadyHolder) := by
  simp [claimOutput, hd, hl, hp]

theorem claimOutput_of_unwilling (hd : durationOk duration.toNat = true) (hl : (s.outputs.get o).lease = some l)
    (hp : l.holder ≠ p) : claimOutput p o duration false s = (s, ⟨.held, [finCode l.holder]⟩) := by
  simp [claimOutput, hd, hl, hp]

theorem claimOutput_of_waiting (hd : durationOk duration.toNat = true) (hl : (s.outputs.get o).lease = some l)
    (hp : l.holder ≠ p) (hw : p ∈ (s.outputs.get o).waiters.map Waiter.port) :
    claimOutput p o duration true s =
      (s, ⟨.alreadyWaiting, [byteOf (((s.outputs.get o).waiters.takeWhile fun w => w.port ≠ p).length + 1)]⟩) := by
  simp only [claimOutput, hd, hl, hp, placeOf_eq, if_pos hw]
  rfl

theorem claimOutput_of_queued (hd : durationOk duration.toNat = true) (hl : (s.outputs.get o).lease = some l)
    (hp : l.holder ≠ p) (hw : p ∉ (s.outputs.get o).waiters.map Waiter.port) :
    claimOutput p o duration true s =
      (s.keepOutput o
        { s.outputs.get o with waiters := (s.outputs.get o).waiters ++ [{ port := p, duration := duration.toNat }] },
        ⟨.queued, [byteOf ((s.outputs.get o).waiters.length + 1)]⟩) := by
  simp only [claimOutput, hd, hl, hp, placeOf_eq, if_neg hw]
  rfl

end

/-! ### The requests of the holder (R86–R88) -/

/-- R73: a zone contributes ON when it is INSIDE, and live or kept by HOLD. -/
theorem contributes_eq_any (policy : LossPolicy) (sl : Slot) :
    contributes policy sl =
      sl.zone.any fun zn => decide (zn.membership = .inside ∧ (zn.frozen = false ∨ policy = .hold)) := by
  unfold contributes
  cases sl.zone with
  | none => rfl
  | some zn =>
    rw [Option.any_some, Bool.eq_iff_iff, decide_eq_true_eq]
    simp only [Bool.and_eq_true, Bool.or_eq_true, beq_iff_eq, Bool.not_eq_true']

theorem mapValue_eq (zones : Table 32 Slot) (out : Output) :
    mapValue zones out = (List.finRange 32).any fun z => out.map.getLsbD z.val && (zones.get z).zone.any fun zn =>
      decide (zn.membership = .inside ∧ (zn.frozen = false ∨ out.policy = .hold)) := by
  rw [mapValue, members, List.any_filter]
  simp only [contributes_eq_any]

/-- R73: the requested value of an output that is held. -/
theorem requestedValue_of_held (zones : Table 32 Slot) {out : Output} (hl : out.lease.isSome) :
    requestedValue zones out = match out.force with
      | .on => true
      | .off => false
      | .none => (List.finRange 32).any fun z => out.map.getLsbD z.val && (zones.get z).zone.any fun zn =>
          decide (zn.membership = .inside ∧ (zn.frozen = false ∨ out.policy = .hold)) := by
  obtain ⟨l, hl⟩ := Option.isSome_iff_exists.1 hl
  unfold requestedValue
  rw [hl]
  cases out.force with
  | none => exact mapValue_eq zones out
  | on | off => rfl

section

variable {s : State} {p : Port} {r : Request} {aw : Bool} {rest : List Dispatch} {work : State → State × Answer} {o : Line}

/-- Work that changes a record as its holder asked. -/
theorem claim_of_holderChange {out : Output} (h : s.Flying p r aw rest)
    (hw : work (s.withInFlight p rest) = (s.withInFlight p rest).holderChange o out) :
    let outs := s.outputs.put o (out.recompute s.zones)
    claim p r work s =
      .next { s.answered p aw rest (.ok [boolCode (requestedValue s.zones out)]) with
                outputs := outs, drivers := s.driven outs } := by
  rw [claim_next h work (by rw [hw]; rfl), hw]; rfl

end

section

variable {s : State} {p : Port} {o : Line}

theorem lowestUndefined_eq_find? (zones : Table 32 Slot) (set : BitVec 32) :
    lowestUndefined zones set = (List.finRange 32).find? fun z => set.getLsbD z.val && (zones.get z).zone.isNone := by
  rw [lowestUndefined, members, List.find?_filter]
  congr 1
  funext z
  rw [Bool.decide_and, Bool.decide_eq_true, Bool.decide_eq_true]

theorem mapOutput_of_other {set : BitVec 32} (hp : (s.outputs.get o).heldBy p = false) :
    mapOutput p o set s = (s, .refuse .notHolder) := by
  simp only [mapOutput, hp, Bool.not_false, if_true]

theorem mapOutput_of_undefined {set : BitVec 32} {z : ZoneId} (hp : (s.outputs.get o).heldBy p = true)
    (hz : lowestUndefined s.zones set = some z) : mapOutput p o set s = (s, ⟨.noSuchZone, [finCode z]⟩) := by
  simp only [mapOutput, hp, hz, Bool.not_true, Bool.false_eq_true, if_false]

theorem mapOutput_accepted {set : BitVec 32} (hp : (s.outputs.get o).heldBy p = true)
    (hz : lowestUndefined s.zones set = none) :
    mapOutput p o set s = s.holderChange o { s.outputs.get o with map := set } := by
  simp only [mapOutput, hp, hz, Bool.not_true, Bool.false_eq_true, if_false]

theorem forceOutput_of_other {f : Force} (hp : (s.outputs.get o).heldBy p = false) :
    forceOutput p o f s = (s, .refuse .notHolder) := by
  simp only [forceOutput, hp, Bool.not_false, if_true]

theorem forceOutput_accepted {f : Force} (hp : (s.outputs.get o).heldBy p = true) :
    forceOutput p o f s = s.holderChange o { s.outputs.get o with force := f } := by
  simp only [forceOutput, hp, Bool.not_true, Bool.false_eq_true, if_false]

theorem configureOutput_of_other {policy : LossPolicy} {hold : Bool} (hp : (s.outputs.get o).heldBy p = false) :
    configureOutput p o policy hold s = (s, .refuse .notHolder) := by
  simp only [configureOutput, hp, Bool.not_false, if_true]

theorem configureOutput_accepted {policy : LossPolicy} {hold : Bool} (hp : (s.outputs.get o).heldBy p = true) :
    configureOutput p o policy hold s = s.holderChange o { s.outputs.get o with policy := policy, hold := hold } := by
  simp only [configureOutput, hp, Bool.not_true, Bool.false_eq_true, if_false]

theorem Output.lease_isSome_of_heldBy {out : Output} (hp : out.heldBy p = true) : out.lease.isSome := by
  rw [Output.heldBy_eq_any] at hp
  exact Option.isSome_of_any hp

end

end Sys2Proof.Machine

namespace Sys2Proof.Outputs

open Machine

/-- Settles O41: the tests of R78 in their order. -/
theorem claimOutput : Obligations.ClaimOutput := by
  intro s p o duration wait aw rest h out d place
  change claim p (.claimOutput o duration wait) (Machine.claimOutput p o duration wait) s = _
  by_cases hd : d < 10 ∨ 10000 < d
  · rw [if_pos hd]
    exact claim_of_kept h (claimOutput_of_badDuration hd)
  rw [if_neg hd]
  replace hd := durationOk_of_not hd
  cases hl : out.lease with
  | none => exact claim_of_keepOutput h (claimOutput_of_unheld hd hl)
  | some l =>
    dsimp only
    by_cases hp : l.holder = p
    · rw [if_pos hp]
      exact claim_of_kept h (claimOutput_of_holder hd hl hp)
    rw [if_neg hp]
    cases wait with
    | false => exact claim_of_kept h (claimOutput_of_unwilling hd hl hp)
    | true =>
      rw [if_neg (by decide : ¬true = false)]
      by_cases hw : p ∈ out.waiters.map Waiter.port
      · rw [if_pos hw]
        exact claim_of_kept h (claimOutput_of_waiting hd hl hp hw)
      · rw [if_neg hw]
        have hwork := claimOutput_of_queued (s := s.withInFlight p rest) hd hl hp hw
        refine (claim_of_keepOutput h hwork).trans ?_
        rw [← hl]
        rfl

/-- Settles O43: each request is its holder's; past that test the record is changed as `claim_of_holderChange` gives it. -/
theorem holderRequests : Obligations.HolderRequests := by
  intro s p o aw rest out holds value changed
  have hheld : out.heldBy p = holds := Output.heldBy_eq_any p out
  have hvalue (out' : Output) (hl : out'.lease = out.lease) (hp : holds = true) : requestedValue s.zones out' = value out' :=
    (requestedValue_of_held s.zones (hl ▸ Output.lease_isSome_of_heldBy (hheld.trans hp))).trans
      (by cases hf : out'.force <;> simp only [value, hf])
  have hchange {r : Request} {work : State → State × Answer} (out' : Output) (hl : out'.lease = out.lease) (hp : holds = true)
      (h : s.Flying p r aw rest) (hw : work (s.withInFlight p rest) = (s.withInFlight p rest).holderChange o out') :
      claim p r work s = .next (changed out') := by
    rw [claim_of_holderChange h hw, Output.recompute, hvalue out' hl hp]
    rfl
  refine ⟨fun set h => ?map, fun f h => ?force, fun policy hold h => ?configure⟩
  case map =>
    change claim p (.mapOutput o set) (mapOutput p o set) s = _
    by_cases hp : holds = false
    · rw [if_pos hp]
      exact claim_of_kept h (mapOutput_of_other (hheld.trans hp))
    rw [if_neg hp]
    replace hp := eq_true_of_ne_false hp
    have hfirst := lowestUndefined_eq_find? s.zones set
    cases hz : (List.finRange 32).find? fun z => set.getLsbD z.val && (s.zones.get z).zone.isNone with
    | some z => exact claim_of_kept h (mapOutput_of_undefined (hheld.trans hp) (hfirst.trans hz))
    | none => exact hchange { out with map := set } rfl hp h (mapOutput_accepted (hheld.trans hp) (hfirst.trans hz))
  case force =>
    change claim p (.forceOutput o f) (forceOutput p o f) s = _
    by_cases hp : holds = false
    · rw [if_pos hp]
      exact claim_of_kept h (forceOutput_of_other (hheld.trans hp))
    · rw [if_neg hp]
      replace hp := eq_true_of_ne_false hp
      exact hchange { out with force := f } rfl hp h (forceOutput_accepted (hheld.trans hp))
  case configure =>
    change claim p (.configureOutput o policy hold) (configureOutput p o policy hold) s = _
    by_cases hp : holds = false
    · rw [if_pos hp]
      exact claim_of_kept h (configureOutput_of_other (hheld.trans hp))
    · rw [if_neg hp]
      replace hp := eq_true_of_ne_false hp
      exact hchange { out with policy := policy, hold := hold } rfl hp h (configureOutput_accepted (hheld.trans hp))

end Sys2Proof.Outputs
end

section
/-!
PROOFS. Lease ticks and expiry (R77, R83), and OHOLD (R76).
-/

namespace Sys2Proof.Machine

/-! ### Ticks -/

/-- R77: a tick leaves a timer at 0, which has presented its claim before. -/
theorem Output.tick_eq (out : Output) :
    out.tick =
      { out with
        lease := out.lease.map fun l => { l with timer := l.timer - 1 }
        expiryClaim := out.expiryClaim || out.lease.any fun l => l.timer = 1 } := by
  unfold Output.tick
  cases hl : out.lease with
  | none =>
    rw [Option.map_none, Option.any_none, Bool.or_false, ← hl]
    split
    · rfl
    · next l' hl' => exact nomatch hl.symm.trans hl'
  | some l =>
    rw [Option.map_some, Option.any_some]
    dsimp only
    by_cases h0 : l.timer = 0
    · have hlease : ({ l with timer := l.timer - 1 } : Lease) = l := by rw [h0, Nat.zero_sub, ← h0]
      rw [if_pos h0, hlease, decide_eq_false (by omega), Bool.or_false, ← hl]
    · rw [if_neg h0]

theorem State.tick_eq (s : State) :
    s.tick =
      { s with
        timebase := s.timebase + BitVec.ofNat 32 (1000 - s.sinceTick)
        sinceTick := 0
        starting := s.starting && decide (s.timebase.toNat + (1000 - s.sinceTick) < 3000)
        outputs := s.outputs.mapIdx fun _ out => out.tick } := rfl

/-! ### Expiry -/

/-- R82: the events at an expiry: LEASE_LOST to the holder, then LEASE_GRANTED to the head of the queue. -/
theorem Output.eventsFor_endEvents_expiry (q : Port) (o : Line) (now : Word) {out : Output} {l : Lease}
    (hl : out.lease = some l) :
    eventsFor q (out.endEvents o .expiry now) =
      (if l.holder = q then [leaseEvent .leaseLost .expiry o l.duration now] else []) ++
      out.waiters.head?.elim [] fun w => if w.port = q then [leaseEvent .leaseGranted .expiry o w.duration now] else [] := by
  unfold Output.endEvents
  rw [hl, eventsFor_append]
  dsimp only
  rw [if_pos rfl, eventsFor_cons, eventsFor_nil, List.append_nil]
  cases out.waiters with
  | nil => rfl
  | cons w ws =>
    dsimp only
    rw [eventsFor_cons, eventsFor_nil, List.append_nil]
    rfl

/-- R83: a lease is ended at the claim of an output whose record is stored first. -/
theorem State.keepOutput_endLease_eq (o : Line) (cause : Cause) {out : Output} (s : State)
    (hr : out.requested = (s.outputs.get o).requested) (hh : out.hold = (s.outputs.get o).hold) :
    let outs := s.outputs.put o (out.endLease.recompute s.zones)
    (s.keepOutput o out).endLease o cause =
      { s with
        outputs := outs
        drivers := s.driven outs
        queues := s.told .zoneController fun q => eventsFor q (out.endEvents o cause s.timebase) } := by
  intro outs
  have hget : (s.keepOutput o out).outputs.get o = out := Table.get_put_self ..
  have hputs : (s.keepOutput o out).outputs.put o (out.endLease.recompute s.zones) = outs := Table.put_put ..
  have hdriven : (s.keepOutput o out).driven outs = s.driven outs := by
    refine Table.mapIdx_congr fun i => ?_
    by_cases hi : o = i
    · rw [← hi, hget, hr, hh]
      rfl
    · rw [show (s.keepOutput o out).outputs.get i = s.outputs.get i from Table.get_put_other _ hi _]
      rfl
  rw [State.endLease, hget, State.setOutput, State.commitOutputs_eq, State.hand_eq_told]
  rw [show (s.keepOutput o out).zones = s.zones from rfl, hputs, hdriven]
  rfl

/-- R83: an expiry claim of an output that is not held, or whose timer runs, is discarded. -/
theorem takeExpiry_of_unheld {o : Line} {s : State} (hl : (s.outputs.get o).lease = none) :
    takeExpiry o s = s.keepOutput o { s.outputs.get o with expiryClaim := false } := by
  simp only [takeExpiry, hl]

theorem takeExpiry_of_running {o : Line} {s : State} {l : Lease} (hl : (s.outputs.get o).lease = some l)
    (ht : l.timer ≠ 0) : takeExpiry o s = s.keepOutput o { s.outputs.get o with expiryClaim := false } := by
  simp only [takeExpiry, hl, if_neg ht]

theorem takeExpiry_of_expired {o : Line} {s : State} {l : Lease} (hl : (s.outputs.get o).lease = some l)
    (ht : l.timer = 0) :
    takeExpiry o s = (s.keepOutput o { s.outputs.get o with expiryClaim := false }).endLease o .expiry := by
  simp only [takeExpiry, hl, if_pos ht]

end Sys2Proof.Machine

namespace Sys2Proof.Outputs

open Machine

/-- Settles O44: the tick by `Output.tick_eq`, the expiry by its three cases, OHOLD by the definition of a driver's pin. -/
theorem leaseTicksAndHold : Obligations.LeaseTicksAndHold := by
  intro s
  refine ⟨fun hr => ?tick, fun o hclaim => ?expiry, fun active => ?hold⟩
  case tick =>
    have hexec : exec .leaseTick s = .next s.tick := congrArg (Host.Outcome.next : State → Result)
      (if_neg (by rw [hr]; exact Bool.false_ne_true))
    rw [hexec, State.tick_eq]
    simp only [Output.tick_eq]
  case expiry =>
    intro out
    have hexec : exec (.leaseExpiry o) s = .next (takeExpiry o s) := if_pos hclaim
    rw [hexec]
    refine congrArg _ ?_
    cases hl : out.lease with
    | none => exact takeExpiry_of_unheld hl
    | some l =>
      by_cases ht : l.timer ≠ 0
      · exact (takeExpiry_of_running hl ht).trans (if_pos ht).symm
      · refine Eq.trans ?_ (if_neg ht).symm
        rw [takeExpiry_of_expired hl (not_not.1 ht), State.keepOutput_endLease_eq (out := out) o .expiry s rfl rfl,
          Output.endLease_eq]
        exact congrArg (fun told : Port → List Event => ({ s with
          outputs := _, drivers := _, queues := s.told .zoneController told } : State))
          (funext fun q => Output.eventsFor_endEvents_expiry q o s.timebase hl)
  case hold =>
    exact congrArg (fun ds : Table 8 Driver => (Host.Outcome.next { s with ohold := active, drivers := ds } : Result))
      (Table.mapIdx_congr fun o => rfl)

end Sys2Proof.Outputs
end

section
/-!
PROOFS. The event queues (05): the append of a record (R99–R102), ACK EVENTS (R105) and SET ATTENTION (R111).
-/

namespace Sys2Proof.Machine

/-! ### What is picked -/

/-- The first entry that passes a test, between those before it and those after it. -/
theorem pick_append_cons {α : Type} {f : α → Bool} {before after : List α} {x : α} (hb : ∀ y ∈ before, f y = false)
    (hx : f x = true) : pick f (before ++ x :: after) = some (x, before ++ after) := by
  induction before with
  | nil => simp [pick, hx]
  | cons y ys ih =>
    rw [List.cons_append, pick, hb y List.mem_cons_self, ih fun z hz => hb z (List.mem_cons_of_mem y hz)]
    rfl

/-! ### Appending to a queue -/

/-- R112: ATTNn of an OPEN queue that holds a record is its attention setting. -/
theorem EventQueue.driveAttn_of_held {q : EventQueue} (ho : q.isOpen = true) (hr : q.records.isEmpty = false) :
    q.driveAttn = { q with attn := q.attention } := by
  rw [driveAttn, attnCondition, ho, hr, Bool.true_and, Bool.not_false, Bool.and_true]

theorem EventRecord.sealMarker_eq (r : EventRecord) :
    r.sealMarker =
      if decide (r.event.kind = .overflow) then { r with event := { r.event with detail := some (.marker true) } } else r := by
  simp only [sealMarker, decide_eq_true_eq]

theorem lastIsMarker_eq (l : List EventRecord) :
    lastIsMarker l = l.getLast?.any fun r => decide (r.event.kind = .overflow) := by
  unfold lastIsMarker
  cases l.getLast? with
  | none => rfl
  | some r => rw [Option.any_some, Bool.eq_iff_iff, beq_iff_eq, decide_eq_true_eq]

section

variable {now : Word} {e : Event} {q : EventQueue}

/-- R99: a CLOSED queue discards. -/
theorem EventQueue.append_of_closed (ho : q.isOpen = false) : q.append now e = q :=
  if_pos (by rw [ho]; rfl)

/-- R101, R102: an ordinary append; a marker at the tail is sealed. -/
theorem EventQueue.append_of_room (ho : q.isOpen = true) (hl : q.records.length < 31) :
    q.append now e =
      { q with
        records := mapLast EventRecord.sealMarker q.records ++ [⟨q.next, e⟩]
        next := q.next + 1
        attn := q.attention } := by
  have hheld := driveAttn_of_held
    (q := push e { q with records := mapLast EventRecord.sealMarker q.records }) ho (by simp [push])
  exact (if_neg (by simp [ho])).trans ((if_pos hl).trans hheld)

/-- R100: a marker at the tail counts what is dropped. -/
theorem EventQueue.append_of_marker (ho : q.isOpen = true) (hl : ¬q.records.length < 31)
    (hm : lastIsMarker q.records = true) :
    q.append now e = { q with records := mapLast EventRecord.countDrop q.records, attn := q.attention } := by
  have hrecords : q.records.isEmpty = false :=
    List.isEmpty_eq_false_iff.2 fun h => hl (by rw [h]; decide)
  have hheld := driveAttn_of_held (q := { q with records := mapLast EventRecord.countDrop q.records }) ho
    ((mapLast_isEmpty ..).trans hrecords)
  exact (if_neg (by simp [ho])).trans ((if_neg hl).trans ((if_pos hm).trans hheld))

/-- R100, R102: a fresh marker takes the place of the record. -/
theorem EventQueue.append_of_full (ho : q.isOpen = true) (hl : ¬q.records.length < 31)
    (hm : lastIsMarker q.records = false) :
    q.append now e =
      { q with records := q.records ++ [⟨q.next, markerEvent now⟩], next := q.next + 1, attn := q.attention } := by
  have hheld := driveAttn_of_held (q := q.push (markerEvent now)) ho (by simp [push])
  exact (if_neg (by simp [ho])).trans ((if_neg hl).trans ((if_neg (by simp [hm])).trans hheld))

end

/-! ### The requests -/

section

variable {s : State} {p : Port} {r : Request} {aw : Bool} {rest : List Dispatch} {work : State → State × Answer} {a : Answer}

/-- Work that replaces the requester's event queue. -/
theorem claim_of_setQueue {q : EventQueue} (h : s.Flying p r aw rest)
    (hw : work (s.withInFlight p rest) = ((s.withInFlight p rest).setQueue p q, a)) :
    claim p r work s = .next { s.answered p aw rest a with queues := s.queues.put p q } := by
  rw [claim_next h work (by rw [hw]; rfl), hw]; rfl

end

section

variable {s : State} {p : Port} {sequence : BitVec 16} {first : EventRecord} {others : List EventRecord}

theorem ackEvents_of_empty (hq : (s.queues.get p).records = []) :
    ackEvents p sequence s = (s, ⟨.badSequence, [0, 0, 0, 0]⟩) := by
  simp only [ackEvents, hq, ackCount]
  rfl

theorem ackEvents_of_held (hq : (s.queues.get p).records = first :: others)
    (hd : (sequence - first.sequence).toNat < (first :: others).length) :
    let d := (sequence - first.sequence).toNat
    let kept := (first :: others).drop (d + 1)
    ackEvents p sequence s =
      (s.setQueue p (EventQueue.driveAttn { s.queues.get p with records := kept }), .ok [byteOf (d + 1), byteOf kept.length]) := by
  simp only [ackEvents, hq, ackCount, if_pos hd]

theorem ackEvents_of_absent (hq : (s.queues.get p).records = first :: others)
    (hd : ¬(sequence - first.sequence).toNat < (first :: others).length) :
    ackEvents p sequence s =
      (s, ⟨.badSequence, [byteOf (first :: others).length, 1] ++ le16 first.sequence⟩) := by
  simp only [ackEvents, hq, ackCount, if_neg hd]
  rfl

end

end Sys2Proof.Machine

namespace Sys2Proof.Queues

open Machine

/-- Settles O45: the oldest record of the producer is the one picked; its append is the case of `EventQueue.append`. -/
theorem eventAppend : Obligations.EventAppend := by
  intro s p src e before after harriving hbefore q q' atTail isMarker
  have hpick : pick (fun a => decide (a.1 = src)) q.arriving = some ((src, e), before ++ after) := by
    rw [show q.arriving = before ++ (src, e) :: after from harriving]
    exact pick_append_cons (fun a ha => decide_eq_false (hbefore a ha)) (decide_eq_true rfl)
  have hexec : exec (.eventAppend p src) s = .next (s.setQueue p (q'.append s.timebase e)) := by
    change execEventAppend p src s = _
    simp only [execEventAppend]
    rw [hpick]
  rw [hexec]
  refine congrArg (fun q : EventQueue => (Host.Outcome.next (s.setQueue p q) : Result)) ?_
  by_cases ho : q.isOpen = false
  · rw [if_pos ho]
    exact EventQueue.append_of_closed ho
  rw [if_neg ho]
  replace ho := eq_true_of_ne_false ho
  by_cases hl : q.records.length < 31
  · rw [if_pos hl, EventQueue.append_of_room (q := q') ho hl, mapLast_eq, funext EventRecord.sealMarker_eq]
  rw [if_neg hl]
  have hmarker : lastIsMarker q.records = q.records.getLast?.any isMarker := lastIsMarker_eq q.records
  by_cases hm : q.records.getLast?.any isMarker = true
  · rw [if_pos hm, EventQueue.append_of_marker (q := q') ho hl (hmarker.trans hm), mapLast_eq]
    rfl
  · rw [if_neg hm, EventQueue.append_of_full (q := q') ho hl (hmarker.trans (eq_false_of_ne_true hm))]
    rfl

/-- Settles O46: the cases of R105, and the stored setting of R111. -/
theorem ackEventsSetAttention : Obligations.AckEventsSetAttention := by
  intro s p aw rest q
  refine ⟨fun sequence h => ?ack, fun b h => claim_of_setQueue (work := setAttention p b) h rfl⟩
  case ack =>
    change claim p (.ackEvents sequence) (ackEvents p sequence) s = _
    cases hq : q.records with
    | nil => exact claim_of_kept h (ackEvents_of_empty hq)
    | cons first others =>
      dsimp only
      by_cases hd : (sequence - first.sequence).toNat < (first :: others).length
      · exact (claim_of_setQueue h (ackEvents_of_held hq hd)).trans (congrArg _ (if_pos hd).symm)
      · exact (claim_of_kept h (ackEvents_of_absent hq hd)).trans (congrArg _ (if_neg hd).symm)

end Sys2Proof.Queues
end

section
/-!
PROOFS. The capture unit (06): trigger inputs (R114–R118), the writes of the ring (R119, R121, R123, R127, R130) and the
cursors (R126, R128, R129).
-/

namespace Sys2Proof.Machine

/-! ### Trigger inputs -/

theorem selects_iff (c : EdgeSel) (edge : InputEdge) :
    selects c edge = true ↔ c = .both ∨ (c = .rise ∧ edge = .rise) ∨ (c = .fall ∧ edge = .fall) := by
  cases c <;> cases edge <;> decide

/-- R117: the snapshot of an axis. -/
theorem snapshotEntries_eq (axes : Table 4 AxisUnit) (set : BitVec 4) :
    snapshotEntries axes set = ((List.finRange 4).filter fun ax => set.getLsbD ax.val).map fun ax =>
      { axis := ax
        position := (axes.get ax).count + (axes.get ax).offset
        summary := match (axes.get ax).state with
          | .idle | .lost _ => .frozen
          | .free | .armed _ => .live
          | .aligned => .aligned } := by
  refine List.map_congr_left fun ax _ => ?_
  have hsummary : (axes.get ax).state.summary = match (axes.get ax).state with
      | .idle | .lost _ => .frozen
      | .free | .armed _ => .live
      | .aligned => .aligned := by
    cases (axes.get ax).state <;> rfl
  rw [hsummary]
  rfl

theorem InputEdge.level_eq (edge : InputEdge) : (edge == .rise) = decide (edge = .rise) := by cases edge <;> rfl

section

variable {edge : InputEdge} {now : Word} {axes : Table 4 AxisUnit} {u : Trigger} {c : TriggerConfig}

theorem Trigger.takeEdge_of_off (hc : u.config = none) :
    u.takeEdge edge now axes = { u with level := decide (edge = .rise) } := by
  simp only [takeEdge, hc, InputEdge.level_eq]

theorem Trigger.takeEdge_of_unselected (hc : u.config = some c) (hs : selects c.edge edge = false) :
    u.takeEdge edge now axes = { u with level := decide (edge = .rise) } := by
  simp only [takeEdge, hc, hs, InputEdge.level_eq, Bool.false_eq_true, if_false]

theorem Trigger.takeEdge_of_empty (hc : u.config = some c) (hs : selects c.edge edge = true) (hl : u.latch = none) :
    u.takeEdge edge now axes =
      { u with level := decide (edge = .rise), latch := some ⟨edge, now, snapshotEntries axes c.axes⟩ } := by
  simp only [takeEdge, hc, hs, hl, InputEdge.level_eq, if_true]

theorem Trigger.takeEdge_of_full {n : Snapshot} (hc : u.config = some c) (hs : selects c.edge edge = true)
    (hl : u.latch = some n) :
    u.takeEdge edge now axes = { u with level := decide (edge = .rise), dropped := true } := by
  simp only [takeEdge, hc, hs, hl, InputEdge.level_eq, if_true]

end

section

variable {s : State} {p : Port} {r : Request} {aw : Bool} {rest : List Dispatch} {work : State → State × Answer} {a : Answer}

/-- Work that replaces one trigger. -/
theorem claim_of_setTrigger {t : TrigIn} {u : Trigger} (h : s.Flying p r aw rest)
    (hw : work (s.withInFlight p rest) = ((s.withInFlight p rest).setTrigger t u, a)) :
    claim p r work s = .next { s.answered p aw rest a with triggers := s.triggers.put t u } := by
  rw [claim_next h work (by rw [hw]; rfl), hw]; rfl

/-- Work that places or discards the requester's cursor. -/
theorem claim_of_setCursor {k : Option Cursor} (h : s.Flying p r aw rest)
    (hw : work (s.withInFlight p rest) = ((s.withInFlight p rest).setCursor p k, a)) :
    claim p r work s =
      .next { s.answered p aw rest a with
                capture := { s.capture with cursors := s.capture.cursors.put p k } } := by
  rw [claim_next h work (by rw [hw]; rfl), hw]; rfl

end

section

variable {s : State} {p : Port} {t : TrigIn} {edge : Option EdgeSel} {e : EdgeSel} {axes : BitVec 4} {c : TriggerConfig}

theorem configureTrigger_of_other (hc : (s.triggers.get t).config = some c) (ha : c.author ≠ p) :
    configureTrigger p t edge axes s = (s, ⟨.triggerInUse, [finCode c.author]⟩) := by
  simp only [configureTrigger, hc]
  exact if_pos ha

/-- A trigger that no other port has configured. -/
def Trigger.freeFor (p : Port) (u : Trigger) : Prop := (u.config.any fun c => c.author ≠ p) = false

theorem configureTrigger_of_free (hf : (s.triggers.get t).freeFor p) :
    configureTrigger p t edge axes s =
      match edge with
      | none => (s.setTrigger t { s.triggers.get t with config := none }, triggerAnswer none)
      | some e =>
        if axes = 0 then (s, .refuse .badArgument)
        else (s.setTrigger t { s.triggers.get t with config := some ⟨e, axes, p⟩ }, triggerAnswer (some ⟨e, axes, p⟩)) := by
  cases hc : (s.triggers.get t).config with
  | none =>
    cases edge <;> simp only [configureTrigger, hc]
  | some c =>
    have ha : ¬c.author ≠ p := by
      rw [Trigger.freeFor, hc, Option.any_some] at hf
      exact of_decide_eq_false hf
    cases edge <;> simp only [configureTrigger, hc, if_neg ha]

end

end Sys2Proof.Machine

namespace Sys2Proof.Capture

open Machine

/-- Settles O47: the edge by the cases of `Trigger.takeEdge`, the request by the tests of R115. -/
theorem triggers : Obligations.Triggers := by
  intro s t u
  refine ⟨fun edge hlevel => ?edge, fun p edge axes aw rest h => ?configure⟩
  case edge =>
    intro u' snapshot
    have hexec : exec (.triggerEdge t edge) s = .next (s.setTrigger t (u.takeEdge edge s.timebase s.axes)) :=
      if_neg (by rw [InputEdge.level_eq]; exact hlevel)
    rw [hexec]
    refine congrArg (fun u : Trigger => (Host.Outcome.next (s.setTrigger t u) : Result)) ?_
    cases hc : u.config with
    | none => exact Trigger.takeEdge_of_off hc
    | some c =>
      by_cases hs : selects c.edge edge = true
      · refine Eq.trans ?_ (if_pos ((selects_iff ..).1 hs)).symm
        cases hl : u.latch with
        | none =>
          rw [Trigger.takeEdge_of_empty hc hs hl, snapshotEntries_eq, hc] <;> rfl
        | some n => rw [Trigger.takeEdge_of_full hc hs hl, hc, hl]
      · refine Eq.trans ?_ (if_neg fun h => hs ((selects_iff ..).2 h)).symm
        exact Trigger.takeEdge_of_unselected hc (eq_false_of_ne_true hs)
  case configure =>
    change claim p (.configureTrigger t edge axes) (configureTrigger p t edge axes) s = _
    by_cases hf : u.config.any (fun c => c.author ≠ p) = true
    · rw [if_pos hf]
      obtain ⟨c, hc, ha⟩ := (Option.any_eq_true ..).1 hf
      rw [hc]
      exact claim_of_kept h (configureTrigger_of_other hc (of_decide_eq_true ha))
    · rw [if_neg hf]
      have hwork := configureTrigger_of_free (s := s.withInFlight p rest) (edge := edge) (axes := axes)
        (eq_false_of_ne_true hf)
      cases edge with
      | none => exact claim_of_setTrigger h hwork
      | some e =>
        by_cases hx : axes = 0
        · exact (claim_of_kept h (hwork.trans (if_pos hx))).trans (congrArg _ (if_pos hx).symm)
        · exact (claim_of_setTrigger h (hwork.trans (if_neg hx))).trans (congrArg _ (if_neg hx).symm)

end Sys2Proof.Capture
end

section
/-!
PROOFS. The two writes of the capture ring (R119, R121, R123, R127, R130).
-/

namespace Sys2Proof.Machine

/-! ### A record written -/

/-- R127: a cursor at the place of the record written over. -/
theorem Cursor.overtaken_eq (gone : Word) (c : Cursor) :
    c.overtaken gone =
      if gone = c.next then ⟨c.next + 1, if c.skip = 4294967295 then 4294967295 else c.skip + 1⟩ else c := by
  unfold overtaken
  by_cases hn : c.next = gone
  · rw [if_pos hn, if_pos hn.symm]
    by_cases hs : c.skip = 4294967295
    · rw [if_pos hs, ← hs, if_pos (hs.trans (by decide))]
    · rw [if_neg hs, if_neg fun h => hs (h.trans (by decide))]
  · rw [if_neg hn, if_neg (Ne.symm hn)]

/-- R123, R127: the ring, the counter and the cursors after a record is written. -/
theorem CaptureUnit.write_eq (mk : Word → CaptureRecord) (c : CaptureUnit) :
    c.write mk =
      { c with
        ring := (if 64 ≤ c.ring.length then c.ring.tail else c.ring) ++ [mk (c.counter + 1)]
        counter := c.counter + 1
        cursors := c.cursors.mapIdx fun _ k => k.map fun k =>
          if 64 ≤ c.ring.length ∧ c.ring.head?.map CaptureRecord.sequence = some k.next then
            ⟨k.next + 1, if k.skip = 4294967295 then 4294967295 else k.skip + 1⟩
          else k } := by
  unfold write overwritten
  by_cases hfull : 64 ≤ c.ring.length
  · rw [show Config.ringMax = 64 from rfl, if_pos hfull, if_pos hfull]
    cases hring : c.ring with
    | nil => exact absurd hfull (by rw [hring]; decide)
    | cons gone others =>
      have hfull' : 64 ≤ (gone :: others).length := hring ▸ hfull
      simp only [hfull', true_and, List.head?_cons, Option.map_some, Option.some_inj, ← Cursor.overtaken_eq]
      rfl
  · rw [show Config.ringMax = 64 from rfl, if_neg hfull, if_neg hfull]
    have hkept (k : Option Cursor) : (k.map fun k : Cursor =>
        if 64 ≤ c.ring.length ∧ c.ring.head?.map CaptureRecord.sequence = some k.next then
          (⟨k.next + 1, if k.skip = 4294967295 then 4294967295 else k.skip + 1⟩ : Cursor)
        else k) = k := by
      simp only [hfull, false_and, if_false, Option.map_id']
    simp only [hkept, Table.mapIdx_same]

/-- R130: CAPTURE_READY goes to the ports whose cursor waited for the record. -/
theorem CaptureUnit.eventsFor_caughtUp (q : Port) (next : Word) (c : CaptureUnit) (e : Event) :
    eventsFor q ((c.caughtUpAt next).map fun p => (p, e)) =
      if (c.cursors.get q).map Cursor.next = some next then [e] else [] := by
  rw [caughtUpAt, eventsFor_having]
  cases c.cursors.get q with
  | none => rfl
  | some k => simp only [Option.map_some, Option.some_inj, decide_eq_true_eq]

theorem State.writeCapture_eq (s : State) {mk : Word → CaptureRecord}
    (hmk : (mk (s.capture.counter + 1)).sequence = s.capture.counter + 1) :
    s.writeCapture mk =
      { s with
        capture := s.capture.write mk
        queues := s.told .captureUnit fun q =>
          if (s.capture.cursors.get q).map Cursor.next = some (s.capture.counter + 1) then
            [⟨.captureReady, none, some (.capture (mk (s.capture.counter + 1)).source), none, 0,
              (s.capture.counter + 1).toNat, s.timebase⟩]
          else [] } := by
  rw [State.writeCapture, State.hand_eq_told]
  simp only [CaptureUnit.eventsFor_caughtUp, captureReady, hmk]
  rfl

end Sys2Proof.Machine

namespace Sys2Proof.Capture

open Machine

/-- Settles O48: both commands write one record; the ring after it is `CaptureUnit.write_eq`. -/
theorem captureWrites : Obligations.CaptureWrites := by
  intro s cap written
  refine ⟨fun t n hn => ?latch, fun c rest hw => ?claim⟩
  case latch =>
    have hexec : exec (.latchSnapshotWrite t) s =
        .next ((s.setTrigger t { s.triggers.get t with latch := none, dropped := false }).writeCapture
          (snapshotRecord t (s.triggers.get t).dropped n)) := by
      change execLatchSnapshotWrite t s = _
      simp only [execLatchSnapshotWrite, hn]
    rw [hexec, State.writeCapture_eq _ rfl, CaptureUnit.write_eq]
    rfl
  case claim =>
    have hexec : exec .zoneCaptureClaim s =
        .next (State.writeCapture (claimRecord c) { s with capture := { s.capture with waiting := rest } }) := by
      change execZoneCaptureClaim s = _
      simp only [execZoneCaptureClaim, show s.capture.waiting = c :: rest from hw]
    rw [hexec, State.writeCapture_eq _ rfl, CaptureUnit.write_eq]
    rfl

end Sys2Proof.Capture
end

section
/-!
PROOFS. The requests of the cursors: ATTACH CURSOR (R126, R130), DETACH CURSOR (R128) and READ CAPTURES (R129).
-/

namespace Sys2Proof.Machine

theorem State.hand_nil (src : Producer) (s : State) : s.hand src [] = s :=
  congrArg (fun queues : Table 4 EventQueue => { s with queues := queues }) (State.told_nil s src)

section

variable {s : State} {p : Port} {r : CaptureRecord} {others : List CaptureRecord}

/-- R126: ATTACH CURSOR at an empty ring: the field "oldest" is a free value (log 11). -/
theorem attachCursor_of_empty (hring : s.capture.ring = []) (mode : CursorMode) :
    attachCursor p mode s =
      ({ s with
          capture := { s.capture with cursors := s.capture.cursors.put p (some ⟨s.capture.counter + 1, 0⟩) }
          freeCount := s.freeCount + 1 },
        .ok (le32 (s.capture.counter + 1) ++ le32 (Config.absentOldest s.freeCount) ++ le32 s.capture.counter ++ [0])) := by
  have hplace : attachPlace mode s.capture = s.capture.counter + 1 := by
    cases mode <;> simp only [attachPlace, hring]
  have hevents : attachEvents p mode s.timebase [] = [] := by cases mode <;> rfl
  rw [attachCursor, hplace, hring, hevents, State.hand_nil]
  rfl

/-- R126, R130: ATTACH CURSOR at a ring that holds a record. -/
theorem attachCursor_of_held (hring : s.capture.ring = r :: others) (mode : CursorMode) :
    let next := if mode = .oldest then r.sequence else s.capture.counter + 1
    attachCursor p mode s =
      ({ s with
          capture := { s.capture with cursors := s.capture.cursors.put p (some ⟨next, 0⟩) }
          queues := s.told .captureUnit fun q =>
            if mode = .oldest ∧ q = p then
              [⟨.captureReady, none, some (.capture r.source), none, 0, r.sequence.toNat, s.timebase⟩]
            else [] },
        .ok (le32 next ++ le32 r.sequence ++ le32 s.capture.counter ++ [1])) := by
  intro next
  have hplace : attachPlace mode s.capture = next := by
    cases mode <;> simp only [attachPlace, hring] <;> rfl
  have hevents (q : Port) : eventsFor q (attachEvents p mode s.timebase (r :: others)) =
      if mode = .oldest ∧ q = p then [captureReady r s.timebase] else [] := by
    cases mode with
    | oldest =>
      rw [attachEvents, eventsFor_cons, eventsFor_nil, List.append_nil]
      simp only [true_and, eq_comm]
    | _ => rfl
  rw [attachCursor, hplace, hring, State.hand_eq_told]
  simp only [hevents]
  rfl

theorem detachCursor_of_detached (hk : s.capture.cursors.get p = none) : detachCursor p s = (s, .refuse .noCursor) := by
  simp only [detachCursor, hk]

theorem detachCursor_of_attached {k : Cursor} (hk : s.capture.cursors.get p = some k) :
    detachCursor p s = (s.setCursor p none, .ok []) := by
  simp only [detachCursor, hk]

theorem readCaptures_of_bad {m : Byte} (hm : m = 0 ∨ 4 < m.toNat) : readCaptures p m s = (s, .refuse .badArgument) :=
  if_pos (hm.imp_left (congrArg BitVec.toNat))

/-- R129: the cursor's next number after a read. -/
theorem nextAfter_eq (k : Cursor) (rs : List CaptureRecord) :
    nextAfter k rs = (rs.getLast?.map fun r => r.sequence + 1).getD k.next := by
  unfold nextAfter
  cases rs.getLast? <;> rfl

theorem readCaptures_of_detached {m : Byte} (hm : ¬(m = 0 ∨ 4 < m.toNat)) (hk : s.capture.cursors.get p = none) :
    readCaptures p m s = (s, .refuse .noCursor) := by
  refine (if_neg fun h => hm (h.imp_left BitVec.eq_of_toNat_eq)).trans ?_
  rw [hk]

theorem readCaptures_of_attached {m : Byte} {k : Cursor} (hm : ¬(m = 0 ∨ 4 < m.toNat))
    (hk : s.capture.cursors.get p = some k) :
    let shown := readRecords m.toNat k s.capture
    let next := (shown.getLast?.map fun r => r.sequence + 1).getD k.next
    readCaptures p m s =
      (s.setCursor p (some ⟨next, 0⟩),
        .ok (le32 k.skip ++ le32 next ++ [byteOf (toRead s.capture.counter next), byteOf shown.length] ++
          shown.flatMap CaptureRecord.bytes)) := by
  refine (if_neg fun h => hm (h.imp_left BitVec.eq_of_toNat_eq)).trans ?_
  rw [hk]
  simp only [nextAfter_eq]

end

end Sys2Proof.Machine

namespace Sys2Proof.Capture

open Machine

/-- Settles O49: the three requests one by one, each by the cases of its rule. -/
theorem cursors : Obligations.Cursors := by
  intro s p aw rest cap placed
  refine ⟨fun mode h => ?attach, fun h => ?detach, fun m h => ?read⟩
  case attach =>
    change claim p (.attachCursor mode) (attachCursor p mode) s = _
    cases hring : cap.ring with
    | nil =>
      have hwork := attachCursor_of_empty (s := s.withInFlight p rest) (p := p) hring mode
      rw [claim_next h _ (by rw [hwork]), hwork]
      rfl
    | cons r others =>
      have hwork := attachCursor_of_held (s := s.withInFlight p rest) (p := p) hring mode
      rw [claim_next h _ (by rw [hwork]), hwork]
      rfl
  case detach =>
    change claim p .detachCursor (detachCursor p) s = _
    cases hk : cap.cursors.get p with
    | none => exact claim_of_kept h (detachCursor_of_detached hk)
    | some k => exact claim_of_setCursor h (detachCursor_of_attached hk)
  case read =>
    change claim p (.readCaptures m) (readCaptures p m) s = _
    by_cases hm : m = 0 ∨ 4 < m.toNat
    · exact (claim_of_kept h (readCaptures_of_bad hm)).trans (congrArg _ (if_pos hm).symm)
    · rw [if_neg hm]
      cases hk : cap.cursors.get p with
      | none => exact claim_of_kept h (readCaptures_of_detached hm hk)
      | some k => exact claim_of_setCursor h (readCaptures_of_attached hm hk)

end Sys2Proof.Capture
end

section
/-!
PROOFS. The message relay (07): POST MESSAGE (R134–R136), TAKE MESSAGE (R137) and WITHDRAW MESSAGE (R138).
-/

namespace Sys2Proof.Machine

theorem pick_eq {α : Type} (f : α → Bool) (l : List α) : pick f l = (l.find? f).map fun x => (x, l.eraseP f) := by
  induction l with
  | nil => rfl
  | cons x xs ih =>
    cases hx : f x with
    | true => simp [pick, hx]
    | false =>
      rw [pick, hx, if_neg Bool.false_ne_true, ih, List.find?_cons_of_neg (by rw [hx]; exact Bool.false_ne_true),
        List.eraseP_cons_of_neg (by rw [hx]; exact Bool.false_ne_true)]
      cases xs.find? f <;> rfl

/-- R134: every id below the lowest free one is carried by a message. -/
theorem lowestId_lowest {pool : List Message} (h : pool.length < 16) {j : Byte} (hj : j < lowestId pool) :
    ∃ m ∈ pool, m.id = j := by
  unfold lowestId at hj
  cases hk : (List.range (pool.length + 1)).find? (idFree pool) with
  | none =>
    obtain ⟨k, hmem, hfree⟩ := exists_idFree h
    exact absurd hfree (List.find?_eq_none.1 hk k hmem)
  | some k =>
    obtain ⟨-, hmem, hbelow⟩ := List.find?_range_eq_some.1 hk
    have hlow : k < pool.length + 1 := List.mem_range.1 hmem
    rw [hk, BitVec.lt_def, toNat_byteOf (by omega)] at hj
    have hused : ¬idFree pool j.toNat = true := by simpa using hbelow j.toNat hj
    rw [idFree_iff, not_not, byteOf, BitVec.ofNat_toNat, BitVec.setWidth_eq] at hused
    exact List.mem_map.1 hused

/-! ### The port units while a request is taken -/

theorem State.withInFlight_session (s : State) (p : Port) (ds : List Dispatch) (q : Port) :
    ((s.withInFlight p ds).ports.get q).session = (s.ports.get q).session := by
  rw [State.withInFlight_ports, Table.get_put]
  split
  · next hq => rw [← hq]
  · rfl

theorem State.withInFlight_number (s : State) (p : Port) (ds : List Dispatch) :
    ((s.withInFlight p ds).ports.get p).number = (s.ports.get p).number := by
  rw [State.withInFlight_ports, Table.get_put_self]

section

variable {s : State} {p : Port} {r : Request} {aw : Bool} {rest : List Dispatch} {work : State → State × Answer} {a : Answer}

/-- Work that replaces the messages held. -/
theorem claim_of_setPool {pool : List Message} (h : s.Flying p r aw rest)
    (hw : work (s.withInFlight p rest) = ((s.withInFlight p rest).setPool pool, a)) :
    claim p r work s = .next { s.answered p aw rest a with pool := pool } := by
  rw [claim_next h work (by rw [hw]; rfl), hw]; rfl

/-- Work that replaces the messages held and hands message events over. -/
theorem claim_of_relay {pool : List Message} {es : List (Port × Event)} {told : Port → List Event} (h : s.Flying p r aw rest)
    (hw : work (s.withInFlight p rest) = (((s.withInFlight p rest).setPool pool).hand .messageRelay es, a))
    (ht : ∀ q, eventsFor q es = told q) :
    claim p r work s =
      .next { s.answered p aw rest a with pool := pool, queues := s.told .messageRelay told } := by
  obtain rfl : (fun q => eventsFor q es) = told := funext ht
  rw [claim_next h work (by rw [hw]; rfl), hw]; rfl

end

/-! ### The work of POST MESSAGE, one equation per case of R135 -/

section

variable {s : State} {p recipient : Port} {notify : Bool} {payload : List Byte}

theorem postMessage_of_full (hp : 16 ≤ s.pool.length) :
    postMessage p recipient notify payload s = (s, .refuse .poolFull) := if_pos hp

theorem postMessage_of_limit (hp : ¬16 ≤ s.pool.length) (hl : 8 ≤ (ofSession p (s.ports.get p).number s.pool).length) :
    postMessage p recipient notify payload s = (s, .refuse .senderLimit) := (if_neg hp).trans (if_pos hl)

theorem postMessage_of_closed (hp : ¬16 ≤ s.pool.length) (hl : ¬8 ≤ (ofSession p (s.ports.get p).number s.pool).length)
    (hr : (s.ports.get recipient).session ≠ .opened) :
    postMessage p recipient notify payload s = (s, .refuse .noRecipient) :=
  (if_neg hp).trans ((if_neg hl).trans (if_pos hr))

theorem postMessage_of_bad (hp : ¬16 ≤ s.pool.length) (hl : ¬8 ≤ (ofSession p (s.ports.get p).number s.pool).length)
    (hr : ¬(s.ports.get recipient).session ≠ .opened) (hb : recipient = p ∨ payload.length = 0 ∨ 48 < payload.length) :
    postMessage p recipient notify payload s = (s, .refuse .badArgument) :=
  (if_neg hp).trans ((if_neg hl).trans ((if_neg hr).trans (if_pos hb)))

theorem postMessage_accepted (hp : ¬16 ≤ s.pool.length) (hl : ¬8 ≤ (ofSession p (s.ports.get p).number s.pool).length)
    (hr : ¬(s.ports.get recipient).session ≠ .opened) (hb : ¬(recipient = p ∨ payload.length = 0 ∨ 48 < payload.length)) :
    let pool := s.pool ++ [newMessage p recipient notify payload s]
    postMessage p recipient notify payload s =
      ((s.setPool pool).hand .messageRelay
          [(recipient, messageEvent .messageArrived none (lowestId s.pool) p s.timebase)],
        .ok (lowestId s.pool :: le32 s.timebase ++ [byteOf (addressedTo recipient pool).length])) :=
  (if_neg hp).trans ((if_neg hl).trans ((if_neg hr).trans (if_neg hb)))

end

/-! ### The work of TAKE and WITHDRAW MESSAGE -/

section

variable {s : State} {p : Port} {m : Message}

theorem takeMessage_of_none (hm : (s.pool.find? fun m => m.recipient = p) = none) :
    takeMessage p s = (s, ⟨.notFound, [0]⟩) := by
  simp only [takeMessage, pick_eq, hm, Option.map_none]

theorem takeMessage_of_some (hm : (s.pool.find? fun m => m.recipient = p) = some m) :
    let pool := s.pool.eraseP fun m => m.recipient = p
    takeMessage p s =
      ((s.setPool pool).hand .messageRelay (takenEvents m s.timebase),
        .ok ([m.id, finCode m.sender, m.senderSession, boolCode m.notify, byteOf m.payload.length] ++ le32 m.posted ++
          [byteOf (addressedTo p pool).length] ++ m.payload)) := by
  simp only [takeMessage, pick_eq, hm, Option.map_some]

/-- R137: MESSAGE_TAKEN goes to the sender that asked, while its posting session lasts. -/
theorem eventsFor_takenEvents (q : Port) (m : Message) (now : Word) :
    eventsFor q (takenEvents m now) =
      if q = m.sender ∧ m.notify = true ∧ m.senderSession ≠ 0 then
        [messageEvent .messageTaken none m.id m.recipient now]
      else [] := by
  unfold takenEvents
  by_cases hn : m.notify = true ∧ m.senderSession ≠ 0
  · rw [if_pos hn, eventsFor_cons, eventsFor_nil, List.append_nil]
    simp only [hn, and_true, ne_eq, not_false_eq_true, eq_comm]
  · rw [if_neg hn, if_neg fun h => hn h.2, eventsFor_nil]

theorem withdrawMessage_of_none {id : Byte}
    (hm : (s.pool.find? fun m => m.id = id ∧ m.sender = p ∧ m.senderSession = (s.ports.get p).number) = none) :
    withdrawMessage p id s = (s, .refuse .notFound) := by
  simp only [withdrawMessage, pick_eq, hm, Option.map_none]

theorem withdrawMessage_of_some {id : Byte}
    (hm : (s.pool.find? fun m => m.id = id ∧ m.sender = p ∧ m.senderSession = (s.ports.get p).number) = some m) :
    withdrawMessage p id s =
      (s.setPool (s.pool.eraseP fun m => m.id = id ∧ m.sender = p ∧ m.senderSession = (s.ports.get p).number),
        .ok ([finCode m.recipient, byteOf m.payload.length] ++ le32 m.posted)) := by
  simp only [withdrawMessage, pick_eq, hm, Option.map_some]

end

end Sys2Proof.Machine

namespace Sys2Proof.Relay

open Machine

/-- Settles O50: the three requests one by one, each by the tests of its rule. -/
theorem messages : Obligations.Messages := by
  intro s p aw rest number held event
  have hport := s.withInFlight_session p rest
  have hnumber : ((s.withInFlight p rest).ports.get p).number = number := s.withInFlight_number p rest
  refine ⟨fun recipient notify payload h => ?post, fun h => ?take, fun id h => ?withdraw⟩
  case post =>
    refine ⟨lowestId s.pool, fun hp => ⟨fun m hm hid => (lowestId_free hp).1 (hid ▸ List.mem_map_of_mem hm),
      fun j hj => lowestId_lowest hp hj⟩, ?_⟩
    change claim p (.postMessage recipient notify payload) (postMessage p recipient notify payload) s = _
    by_cases hp : 16 ≤ s.pool.length
    · rw [if_pos hp]
      exact claim_of_kept h (postMessage_of_full hp)
    rw [if_neg hp]
    by_cases hl : 8 ≤ (s.pool.filter fun m => m.sender = p ∧ m.senderSession = number).length
    · rw [if_pos hl]
      exact claim_of_kept h (postMessage_of_limit hp (by rw [hnumber]; exact hl))
    rw [if_neg hl]
    replace hl : ¬8 ≤ (ofSession p ((s.withInFlight p rest).ports.get p).number s.pool).length := by rw [hnumber]; exact hl
    by_cases hr : (s.ports.get recipient).session ≠ .opened
    · rw [if_pos hr]
      exact claim_of_kept h (postMessage_of_closed hp hl (by rw [hport]; exact hr))
    rw [if_neg hr]
    rw [← hport] at hr
    by_cases hb : recipient = p ∨ payload.length = 0 ∨ 48 < payload.length
    · rw [if_pos hb]
      exact claim_of_kept h (postMessage_of_bad hp hl hr hb)
    rw [if_neg hb]
    have hwork := postMessage_accepted (s := s.withInFlight p rest) (notify := notify) hp hl hr hb
    rw [newMessage, hnumber] at hwork
    refine claim_of_relay h hwork fun q => ?_
    rw [eventsFor_cons, eventsFor_nil, List.append_nil]
    simp only [eq_comm]
    rfl
  case take =>
    change claim p .takeMessage (takeMessage p) s = _
    cases hm : s.pool.find? fun m => m.recipient = p with
    | none => exact claim_of_kept h (takeMessage_of_none hm)
    | some m =>
      have hp : m.recipient = p := by simpa using List.find?_some hm
      refine claim_of_relay h (takeMessage_of_some hm) fun q => ?_
      rw [eventsFor_takenEvents, hp]
      rfl
  case withdraw =>
    intro mine
    change claim p (.withdrawMessage id) (withdrawMessage p id) s = _
    cases hm : s.pool.find? mine with
    | none => exact claim_of_kept h (withdrawMessage_of_none (by rw [hnumber]; exact hm))
    | some m =>
      have hwork := withdrawMessage_of_some (s := s.withInFlight p rest) (p := p) (id := id) (m := m) (by rw [hnumber]; exact hm)
      rw [hnumber] at hwork
      exact claim_of_setPool h hwork

end Sys2Proof.Relay
end
